-- ==== Sys2Proof/Word.lean ====
section
/-! DEFINITION. The widths of AESC-128: bytes, 128-bit blocks, columns and command words (spec 00 R8, R10, R12). -/

namespace Sys2Proof

/-- A byte: a field element of GF(2^8), bit `i` the coefficient of `x^i` (00 R10). -/
abbrev Byte := BitVec 8

/-- Any 128-bit value: a block, a key, a round key, a data port (00 R8, R12). -/
abbrev Block := BitVec 128

/-- One column of a 4 x 4 byte matrix: rows 0 to 3, row 0 in the most significant byte (00 R12). -/
abbrev Column := BitVec 32

/-- The one command word (30 R80). -/
abbrev CmdWord := BitVec 32

end Sys2Proof
end

