-- ==== Sys2Proof/Machine/Bytes.lean ====
section
/-! DEFINITION. Byte order and the state matrix of a 128-bit value (spec 00 R12, 20 R54). -/

namespace Sys2Proof.Machine

/-- `V.byte[k] = V[127-8k : 120-8k]`, for `k` in 0..15: byte 0 is the most significant byte (00 R12). -/
def byteAt (v : Block) (k : Nat) : Byte := v.extractLsb' (120 - 8 * k) 8

/-- The 128-bit value whose byte `k` is `f k`, for `k` in 0..15. -/
def ofBytes (f : Nat → Byte) : Block :=
  f 0 ++ f 1 ++ f 2 ++ f 3 ++ f 4 ++ f 5 ++ f 6 ++ f 7 ++ f 8 ++ f 9 ++ f 10 ++ f 11 ++ f 12 ++ f 13 ++ f 14 ++ f 15

/-- The matrix element `V[r][c] = V.byte[r + 4c]`, read column-major (00 R12). -/
def elemAt (v : Block) (r c : Nat) : Byte := byteAt v (r + 4 * c)

/-- The 128-bit value whose matrix element `[r][c]` is `f r c`, for `r` and `c` in 0..3. -/
def ofMatrix (f : Nat → Nat → Byte) : Block := ofBytes fun k => f (k % 4) (k / 4)

/-- Column `c` of the matrix, `V.byte[4c .. 4c+3]`, row 0 in the most significant byte (00 R12). -/
def column (v : Block) (c : Nat) : Column := v.extractLsb' (96 - 32 * c) 32

/-- The byte of a column in row `r`, for `r` in 0..3. -/
def rowOf (t : Column) (r : Nat) : Byte := t.extractLsb' (24 - 8 * r) 8

/-- The 128-bit value with the four given columns. -/
def ofColumns (c0 c1 c2 c3 : Column) : Block := c0 ++ c1 ++ c2 ++ c3

end Sys2Proof.Machine
end

