-- ==== Sys2Proof/Machine/Galois.lean ====
section
/-! DEFINITION. Arithmetic in GF(2^8) modulo 0x11B (spec file 40, section 1). -/

namespace Sys2Proof.Machine

/-- The reduction polynomial `x^8 + x^4 + x^3 + x + 1` (00 R8, 40 R110). -/
def reductionPoly : BitVec 16 := 0x11B

/-- The carry-less product of two bytes, up to 15 bits: the first loop of 40 R110. -/
def carrylessProduct (a b : Byte) : BitVec 16 :=
  (List.range 8).foldl (fun p i => if b.getLsbD i then p ^^^ (a.setWidth 16 <<< i) else p) 0

/-- The remainder modulo 0x11B: the second loop of 40 R110, bits 14 down to 8. -/
def reduceProduct (p : BitVec 16) : BitVec 16 :=
  [14, 13, 12, 11, 10, 9, 8].foldl (fun p i => if p.getLsbD i then p ^^^ (reductionPoly <<< (i - 8)) else p) p

/-- `gmul(a, b)`, the field product (40 R110). Total. -/
def gmul (a b : Byte) : Byte := (reduceProduct (carrylessProduct a b)).setWidth 8

/-- `ginv(a)`: 0 for 0, and otherwise the byte `b` with `gmul(a, b) = 1` (40 R112). It exists and is unique, so the default
of the search is never taken. -/
def ginv (a : Byte) : Byte :=
  if a = 0 then 0
  else (((List.range 256).map (BitVec.ofNat 8)).find? fun b => gmul a b == 1).getD 0

/-- `gmul` powers: `a^0 = 1`, `a^(n+1) = gmul(a^n, a)` (40 R113). -/
def gpow (a : Byte) : Nat → Byte
  | 0 => 1
  | n + 1 => gmul (gpow a n) a

/-- `xtime(a)` in the shift form of 40 R114. -/
def xtime (a : Byte) : Byte := (a <<< 1) ^^^ (if a.getLsbD 7 then 0x1B else 0x00)

/-- The squaring network `s(a) = gmul(a, a)` (40 R116). -/
def gsquare (a : Byte) : Byte := gmul a a

end Sys2Proof.Machine
end

