-- ==== Sys2Proof/Machine/SBox.lean ====
section
/-! DEFINITION. The substitution box: its maps and the two ROMs (spec file 41). -/

namespace Sys2Proof.Machine

/-- The byte whose bit `i` is `f i`, for `i` in 0..7. -/
def ofBits (f : Nat → Bool) : Byte :=
  (List.range 8).foldl (fun q i => if f i then q ||| (1#8 <<< i) else q) 0

/-- The affine map, bit by bit (41 R132). -/
def affine (q : Byte) : Byte :=
  ofBits fun i =>
    q.getLsbD i ^^ q.getLsbD ((i + 4) % 8) ^^ q.getLsbD ((i + 5) % 8) ^^ q.getLsbD ((i + 6) % 8)
      ^^ q.getLsbD ((i + 7) % 8) ^^ (0x63#8).getLsbD i

/-- The inverse affine map, bit by bit (41 R133, 90 C1). -/
def invAffine (s : Byte) : Byte :=
  ofBits fun i =>
    s.getLsbD ((i + 2) % 8) ^^ s.getLsbD ((i + 5) % 8) ^^ s.getLsbD ((i + 7) % 8) ^^ (0x05#8).getLsbD i

/-- `sbox(b) = affine(ginv(b))` (41 R131). -/
def sboxMap (b : Byte) : Byte := affine (ginv b)

/-- `inv_sbox(s) = ginv(inv_affine(s))` (41 R134). -/
def invSboxMap (s : Byte) : Byte := ginv (invAffine s)

/-- A 256 x 8 table held as sixteen rows of sixteen bytes, the row the high nibble of the address and the column the low
nibble, byte 0 of a row the most significant one (the layout of 41 R136). -/
def romRead (rows : List Block) (a : Byte) : Byte := byteAt (rows.getD (a.toNat / 16) 0) (a.toNat % 16)

/-- The contents of `SBOX_ROM` (41 R136). -/
def sboxRows : List Block :=
  [
   0x637c777bf26b6fc53001672bfed7ab76,
   0xca82c97dfa5947f0add4a2af9ca472c0,
   0xb7fd9326363ff7cc34a5e5f171d83115,
   0x04c723c31896059a071280e2eb27b275,
   0x09832c1a1b6e5aa0523bd6b329e32f84,
   0x53d100ed20fcb15b6acbbe394a4c58cf,
   0xd0efaafb434d338545f9027f503c9fa8,
   0x51a3408f929d38f5bcb6da2110fff3d2,
   0xcd0c13ec5f974417c4a77e3d645d1973,
   0x60814fdc222a908846eeb814de5e0bdb,
   0xe0323a0a4906245cc2d3ac629195e479,
   0xe7c8376d8dd54ea96c56f4ea657aae08,
   0xba78252e1ca6b4c6e8dd741f4bbd8b8a,
   0x703eb5664803f60e613557b986c11d9e,
   0xe1f8981169d98e949b1e87e9ce5528df,
   0x8ca1890dbfe6426841992d0fb054bb16 ]

/-- The contents of `INV_SBOX_ROM` (41 R137). -/
def invSboxRows : List Block :=
  [
   0x52096ad53036a538bf40a39e81f3d7fb,
   0x7ce339829b2fff87348e4344c4dee9cb,
   0x547b9432a6c2233dee4c950b42fac34e,
   0x082ea16628d924b2765ba2496d8bd125,
   0x72f8f66486689816d4a45ccc5d65b692,
   0x6c704850fdedb9da5e154657a78d9d84,
   0x90d8ab008cbcd30af7e45805b8b34506,
   0xd02c1e8fca3f0f02c1afbd0301138a6b,
   0x3a9111414f67dcea97f2cfcef0b4e673,
   0x96ac7422e7ad3585e2f937e81c75df6e,
   0x47f11a711d29c5896fb7620eaa18be1b,
   0xfc563e4bc6d279209adbc0fe78cd5af4,
   0x1fdda8338807c731b11210592780ec5f,
   0x60517fa919b54a0d2de57a9f93c99cef,
   0xa0e03b4dae2af5b0c8ebbb3c83539961,
   0x172b047eba77d626e169146355210c7d ]

/-- `SBOX_ROM[a]` (41 R136, R138). -/
def sboxRom (a : Byte) : Byte := romRead sboxRows a

/-- `INV_SBOX_ROM[a]` (41 R137, R138). -/
def invSboxRom (a : Byte) : Byte := romRead invSboxRows a

end Sys2Proof.Machine
end

