-- ==== Sys2Proof/Machine/Rounds.lean ====
section
/-! DEFINITION. The eight stage functions on a 128-bit state (spec file 43, section 1). -/

namespace Sys2Proof.Machine

/-- `SubBytes` (43 R170). -/
def subBytes (s : Block) : Block := ofBytes fun k => sboxRom (byteAt s k)

/-- `InvSubBytes` (43 R171). -/
def invSubBytes (s : Block) : Block := ofBytes fun k => invSboxRom (byteAt s k)

/-- `ShiftRows`: row `r` cyclically shifted left by `r` (43 R172). -/
def shiftRows (s : Block) : Block := ofMatrix fun r c => elemAt s r ((c + r) % 4)

/-- `InvShiftRows`: row `r` shifted right by `r` (43 R173). `c + 4 - r` is `c - r` modulo 4. -/
def invShiftRows (s : Block) : Block := ofMatrix fun r c => elemAt s r ((c + 4 - r) % 4)

/-- The mixing matrix `MC` (43 R174). -/
def mixMatrix : List (List Byte) :=
  [[0x02, 0x03, 0x01, 0x01],
   [0x01, 0x02, 0x03, 0x01],
   [0x01, 0x01, 0x02, 0x03],
   [0x03, 0x01, 0x01, 0x02]]

/-- The inverse mixing matrix `IMC` (43 R175). -/
def invMixMatrix : List (List Byte) :=
  [[0x0E, 0x0B, 0x0D, 0x09],
   [0x09, 0x0E, 0x0B, 0x0D],
   [0x0D, 0x09, 0x0E, 0x0B],
   [0x0B, 0x0D, 0x09, 0x0E]]

/-- Entry `[r][k]` of a 4 x 4 matrix, for `r` and `k` in 0..3. -/
def matrixEntry (m : List (List Byte)) (r k : Nat) : Byte := (m.getD r []).getD k 0

/-- A 4 x 4 matrix over GF(2^8) applied to every column of a state (43 R174, R175). -/
def mixWith (m : List (List Byte)) (s : Block) : Block :=
  ofMatrix fun r c =>
    gmul (matrixEntry m r 0) (elemAt s 0 c) ^^^ gmul (matrixEntry m r 1) (elemAt s 1 c)
      ^^^ gmul (matrixEntry m r 2) (elemAt s 2 c) ^^^ gmul (matrixEntry m r 3) (elemAt s 3 c)

/-- `MixColumns` (43 R174). -/
def mixColumns (s : Block) : Block := mixWith mixMatrix s

/-- `InvMixColumns` (43 R175). -/
def invMixColumns (s : Block) : Block := mixWith invMixMatrix s

/-- `AddRoundKey` (43 R176). -/
def addRoundKey (s k : Block) : Block := s ^^^ k

end Sys2Proof.Machine
end

