-- ==== Sys2Proof/Machine/Cipher.lean ====
section
/-! DEFINITION. The two block transforms (spec file 44, section 1). -/

namespace Sys2Proof.Machine

/-- The body of the loop of `encryptBlock` (44 R200 step 2). -/
def encryptRound (s k : Block) : Block := addRoundKey (mixColumns (shiftRows (subBytes s))) k

/-- The final round of `encryptBlock`, with no MixColumns (44 R200 step 3). -/
def encryptLast (s k : Block) : Block := addRoundKey (shiftRows (subBytes s)) k

/-- The body of the loop of `decryptBlock` (44 R201). -/
def decryptRound (s k : Block) : Block := invMixColumns (addRoundKey (invSubBytes (invShiftRows s)) k)

/-- The final round of `decryptBlock` (44 R201). -/
def decryptLast (s k : Block) : Block := addRoundKey (invSubBytes (invShiftRows s)) k

/-- The round indices 1 to 9, in order. -/
def middleRounds : List (Fin 11) := [1, 2, 3, 4, 5, 6, 7, 8, 9]

/-- `encryptBlock(B, RK)` (44 R200). -/
def encryptBlock (b : Block) (rk : Vector Block 11) : Block :=
  encryptLast (middleRounds.foldl (fun s r => encryptRound s (rk.get r)) (addRoundKey b (rk.get 0))) (rk.get 10)

/-- `decryptBlock(B, RK)`: the same table in reverse order (44 R201). -/
def decryptBlock (b : Block) (rk : Vector Block 11) : Block :=
  decryptLast (middleRounds.reverse.foldl (fun s r => decryptRound s (rk.get r)) (addRoundKey b (rk.get 10))) (rk.get 0)

end Sys2Proof.Machine
end

