-- ==== Sys2Proof/Config.lean ====
section
/-! DEFINITION. The one parameter the spec leaves open: the latency of a command (00 R9, 92 D20, 93 U2). Every other width,
count and constant is fixed (00 R8). -/

namespace Sys2Proof

/-- FREE VALUE (log entry 2). `LAT - 1` of the command instance with this draw number, command word, captured `din` and
captured `key_in`: how many `EXEC` edges pass before its completing edge. `LAT(op) ≥ 1` and finite, "fixed per opcode or not"
(44 R207, R212); nothing else is known of it. -/
opaque Config.extraEdges : Nat → CmdWord → Block → Block → Nat

end Sys2Proof
end

