-- ==== Sys2Proof/Syntax.lean ====
section
/-! DEFINITION. The 17 commands of AESC-128, one constructor per row of spec/opcode_table.json (30 R84). -/

namespace Sys2Proof

/-- A command with the fields of the word it uses (30 R82, R84). The block operand `din` and the key operand `key_in` are
captured in registers (10 R31) and are no part of the word. A round index is the whole 4-bit field: the values 11 to 15 are
words of RKRD and ARK too, and end with `ERR_RND` (30 R86). -/
inductive Instr where
  /-- NOP, OP 0x00 (44 R202). -/
  | nop
  /-- GFMUL, OP 0x01: field product of the fields `A` and `B` (40 R117). -/
  | gfmul (a b : Byte)
  /-- GFINV, OP 0x02: field inverse of the field `A` (40 R118). -/
  | gfinv (a : Byte)
  /-- SBOX, OP 0x03: forward substitution of the field `A` (41 R139). -/
  | sbox (a : Byte)
  /-- INVSBOX, OP 0x04: inverse substitution of the field `A` (41 R140). -/
  | invsbox (a : Byte)
  /-- KEYEXP, OP 0x05: load and expand the key operand (42 R155). -/
  | keyexp
  /-- RKRD, OP 0x06: read round key `RND` (42 R156). -/
  | rkrd (rnd : BitVec 4)
  /-- ENC, OP 0x07: encrypt the block operand (44 R203). -/
  | enc
  /-- DEC, OP 0x08: decrypt the block operand (44 R204). -/
  | dec
  /-- LDST, OP 0x09: load `STATE` from the block operand (43 R180). -/
  | ldst
  /-- SUBB, OP 0x0A: SubBytes stage (43 R181). -/
  | subb
  /-- INVSUBB, OP 0x0B: InvSubBytes stage (43 R182). -/
  | invsubb
  /-- SHR, OP 0x0C: ShiftRows stage (43 R183). -/
  | shr
  /-- INVSHR, OP 0x0D: InvShiftRows stage (43 R184). -/
  | invshr
  /-- MIXC, OP 0x0E: MixColumns stage (43 R185). -/
  | mixc
  /-- INVMIXC, OP 0x0F: InvMixColumns stage (43 R186). -/
  | invmixc
  /-- ARK, OP 0x10: AddRoundKey stage with round key `RND` (43 R187). -/
  | ark (rnd : BitVec 4)
  deriving DecidableEq, Repr

end Sys2Proof
end

