-- ==== Sys2Proof/WellFormed.lean ====
section
/-! DEFINITION. Which commands name a round key that exists (20 R51, 30 R82). A command that is not well-formed still has an
encoding and a meaning: it ends with `ERR_RND` (30 R86). -/

namespace Sys2Proof

/-- A round index of the 11-entry table (10 R24, 30 R82: "valid in 0..10"). -/
abbrev validRound (rnd : BitVec 4) : Prop := rnd.toNat ≤ 10

/-- The command names only round keys that exist. Every byte operand is valid (40 R110, R112). -/
def Instr.wellFormed : Instr → Bool
  | .rkrd rnd => decide (validRound rnd)
  | .ark rnd => decide (validRound rnd)
  | .nop | .gfmul _ _ | .gfinv _ | .sbox _ | .invsbox _ | .keyexp | .enc | .dec | .ldst | .subb | .invsubb | .shr
  | .invshr | .mixc | .invmixc => true

end Sys2Proof
end

