-- ==== Sys2Proof/Decode.lean ====
section
/-! DEFINITION. The command word: its fields, the decoder and the encoder (spec file 30). -/

namespace Sys2Proof

/-! ### The fields of the word (30 R81) -/

/-- `OP`, bits 4:0. -/
def fieldOp (w : CmdWord) : BitVec 5 := w.extractLsb' 0 5
/-- `RSV0`, bits 7:5, must be 0. -/
def fieldRsv0 (w : CmdWord) : BitVec 3 := w.extractLsb' 5 3
/-- `RND`, bits 11:8. -/
def fieldRnd (w : CmdWord) : BitVec 4 := w.extractLsb' 8 4
/-- `RSV1`, bits 15:12, must be 0. -/
def fieldRsv1 (w : CmdWord) : BitVec 4 := w.extractLsb' 12 4
/-- `A`, bits 23:16. -/
def fieldA (w : CmdWord) : Byte := w.extractLsb' 16 8
/-- `B`, bits 31:24. -/
def fieldB (w : CmdWord) : Byte := w.extractLsb' 24 8

/-- Why a word is no command (30 R86). Both are defined completions of the hardware, not undefined behaviour. -/
inductive DecodeError where
  /-- The opcode is 0x11 to 0x1F (60 R230, `ERR_ILLEGAL`). -/
  | illegal
  /-- A reserved field is nonzero under a legal opcode (60 R231, `ERR_RSVD`). -/
  | reserved
  deriving DecidableEq, Repr

/-- The opcode map, read by the opcode field alone (30 R84). Fields the row does not use are not looked at (30 R83). -/
def decodeOp (w : CmdWord) : Option Instr :=
  match (fieldOp w).toNat with
  | 0x00 => some .nop
  | 0x01 => some (.gfmul (fieldA w) (fieldB w))
  | 0x02 => some (.gfinv (fieldA w))
  | 0x03 => some (.sbox (fieldA w))
  | 0x04 => some (.invsbox (fieldA w))
  | 0x05 => some .keyexp
  | 0x06 => some (.rkrd (fieldRnd w))
  | 0x07 => some .enc
  | 0x08 => some .dec
  | 0x09 => some .ldst
  | 0x0A => some .subb
  | 0x0B => some .invsubb
  | 0x0C => some .shr
  | 0x0D => some .invshr
  | 0x0E => some .mixc
  | 0x0F => some .invmixc
  | 0x10 => some (.ark (fieldRnd w))
  | _ => none

/-- Decoding, total on all 2^32 words: the first two checks of 30 R85, in its order. The checks of `RND` and of `KEY_VALID`
need the command's meaning (Machine/Operands.lean). -/
def decode (w : CmdWord) : Except DecodeError Instr :=
  match decodeOp w with
  | none => .error .illegal
  | some i => if fieldRsv0 w != 0 || fieldRsv1 w != 0 then .error .reserved else .ok i

/-! ### The encoder -/

/-- A word of format `C` with both reserved fields 0: `(B << 24) | (A << 16) | (RND << 8) | OP` (30 R81). -/
def formatC (op : BitVec 5) (rnd : BitVec 4) (a b : Byte) : CmdWord :=
  b ++ a ++ 0#4 ++ rnd ++ 0#3 ++ op

/-- The opcode of each command (30 R84). -/
def Instr.opcode : Instr → BitVec 5
  | .nop => 0x00
  | .gfmul _ _ => 0x01
  | .gfinv _ => 0x02
  | .sbox _ => 0x03
  | .invsbox _ => 0x04
  | .keyexp => 0x05
  | .rkrd _ => 0x06
  | .enc => 0x07
  | .dec => 0x08
  | .ldst => 0x09
  | .subb => 0x0A
  | .invsubb => 0x0B
  | .shr => 0x0C
  | .invshr => 0x0D
  | .mixc => 0x0E
  | .invmixc => 0x0F
  | .ark _ => 0x10

/-- The word the assembler writes for a command: 0 in the reserved fields and in every unused field (30 R87). -/
def encode (i : Instr) : CmdWord :=
  match i with
  | .gfmul a b => formatC i.opcode 0 a b
  | .gfinv a => formatC i.opcode 0 a 0
  | .sbox a => formatC i.opcode 0 a 0
  | .invsbox a => formatC i.opcode 0 a 0
  | .rkrd rnd => formatC i.opcode rnd 0 0
  | .ark rnd => formatC i.opcode rnd 0 0
  | .nop | .keyexp | .enc | .dec | .ldst | .subb | .invsubb | .shr | .invshr | .mixc | .invmixc => formatC i.opcode 0 0 0

/-! ### The table's numbering -/

/-- The command word whose low `nbits` bits are those of `w` and whose other bits are 0. The command word is one value on a
32-bit port (30 R80), so the table's numbering of the bits is the port's own. -/
def tableWord (nbits w : Nat) : CmdWord := BitVec.ofNat 32 (w % 2 ^ nbits)

/-- What the decoder reads from a word given in the opcode table's numbering. -/
def decodeTableWord (nbits w : Nat) : Option Instr :=
  match decode (tableWord nbits w) with
  | .ok i => some i
  | .error _ => none

end Sys2Proof
end

