-- ==== Sys2Proof/Machine/State.lean ====
section
/-! DEFINITION. The state of AESC-128 as plain data, its reset value, and how a step can stop (spec file 10). -/

namespace Sys2Proof.Machine

/-- The values the host drives on the input ports in the cycle before one rising edge (10 R20). -/
structure Ports where
  /-- `rst`, synchronous reset, active high (70 R260). -/
  rst : Bool
  /-- `cmd_valid`: the host offers a command. -/
  cmdValid : Bool
  /-- `cmd`, the command word. -/
  cmd : CmdWord
  /-- `din`, the block operand. -/
  din : Block
  /-- `key_in`, the key operand. -/
  keyIn : Block
  deriving DecidableEq, Repr

/-- One thing the outside world does to the core. -/
inductive HostEvent where
  /-- A rising edge of `clk`, with the port values of the cycle before it. -/
  | edge (p : Ports)
  /-- The clock was gated or the power removed: the state may be lost (60 R248, 93 U19). No edge. -/
  | powerLoss
  deriving DecidableEq, Repr

/-- The phase of the control FSM (10 R31). -/
inductive Phase where
  /-- `IDLE` accepts commands. -/
  | idle
  /-- `EXEC` executes one. -/
  | exec
  deriving DecidableEq, Repr

/-- The output ports (10 R20). -/
structure Outputs where
  /-- `cmd_ready` (10 R32). -/
  cmdReady : Bool
  /-- `dout`, a wire from `DOUT` (10 R34). -/
  dout : Block
  /-- `y`, a wire from `Y` (10 R34). -/
  y : Byte
  /-- `status` (10 R30). -/
  status : BitVec 8
  deriving DecidableEq, Repr

/-- Every register of files 10 and 42, and four fields of the model's own (the last four). The constant tables have no write
path (10 R36) and are definitions (Machine/SBox.lean, Machine/KeySchedule.lean, Machine/Rounds.lean). -/
structure State where
  /-- `STATE` (10 R21). -/
  state : Block
  /-- `DOUT` (10 R22). -/
  dout : Block
  /-- `Y` (10 R23). -/
  y : Byte
  /-- `RKT[0..10]` (10 R24, 20 R51). -/
  rkt : Vector Block 11
  /-- `KEY_VALID` (10 R25). -/
  keyValid : Bool
  /-- `ERR`, the code of the most recently completed command (10 R26, 60 R230). -/
  err : BitVec 3
  /-- `BUSY` (10 R28). -/
  busy : Bool
  /-- `DONE` (10 R29). -/
  done : Bool
  /-- `FSM` (10 R31). -/
  fsm : Phase
  /-- `CMDR`, `cmd` captured at acceptance (10 R31). -/
  cmdr : CmdWord
  /-- `DINR`, `din` captured at acceptance (10 R31). -/
  dinr : Block
  /-- `KEYR`, `key_in` captured at acceptance (10 R31). -/
  keyr : Block
  /-- `CNT`, cycles spent in `EXEC` for the current command (10 R31). Hidden. -/
  cnt : BitVec 6
  /-- `RCNT`, the round counter of the reference sequencer (10 R31). Hidden. -/
  rcnt : BitVec 4
  /-- `WORK` (44 R210, R211). Hidden. -/
  work : Block
  /-- `WKEY` (42 R157). Hidden. -/
  wkey : Block
  /-- `SHADOW[1..10]`, held at indices 0 to 9 (42 R157). Hidden. -/
  shadow : Vector Block 10
  /-- `GACC` (40 R115). Hidden. -/
  gacc : Byte
  /-- `GA` (40 R115). Hidden. -/
  ga : Byte
  /-- `GB` (40 R115). Hidden. -/
  gb : Byte
  /-- `GSTEP` (40 R115). Hidden. -/
  gstep : BitVec 3
  /-- The model's own: a reset edge has happened since power-up (70 R263). DESIGN CHOICE, log entry 9. -/
  initialised : Bool
  /-- The model's own: `EXEC` edges left before the completing edge of the command in flight. Log entries 2 and 10. -/
  edgesLeft : Nat
  /-- The model's own: how many latencies have been drawn. Log entries 2 and 10. -/
  draws : Nat
  /-- The model's own: what the host does at the coming steps, the next event first. Log entries 1 and 10. -/
  host : List HostEvent
  deriving DecidableEq, Repr

/-- The machine right after a reset edge (10 R40), with nothing driven by the host. DESIGN CHOICE for the last four fields,
which are the model's own (log entries 1, 2, 9 and 10). -/
def State.reset : State where
  state := 0
  dout := 0
  y := 0
  rkt := #v[0, 0, 0, 0, 0, 0, 0, 0, 0, 0, 0]
  keyValid := false
  err := 0
  busy := false
  done := false
  fsm := .idle
  cmdr := 0
  dinr := 0
  keyr := 0
  cnt := 0
  rcnt := 0
  work := 0
  wkey := 0
  shadow := #v[0, 0, 0, 0, 0, 0, 0, 0, 0, 0]
  gacc := 0
  ga := 0
  gb := 0
  gstep := 0
  initialised := true
  edgesLeft := 0
  draws := 0
  host := []

/-- How the machine stops. -/
inductive Fault where
  /-- Raised by a clock edge with `rst = 0` while no reset edge has happened since power-up (or since a power loss): every
  register is unspecified there and "no claim may be made" (70 R263; 93 U1 and U19 say: fault). Safe: the hardware may go on. -/
  | beforeReset
  deriving DecidableEq, Repr

/-- Why a command has no meaning in the model. -/
inductive Refusal where
  /-- Raised by an arm of `exec` whose command has no meaning yet. No arm raises it: all 17 commands are modelled. Safe. -/
  | notModelled (mnemonic : String)
  deriving DecidableEq, Repr

end Sys2Proof.Machine
end

