-- ==== Sys2Proof/Machine/Flags.lean ====
section
/-! DEFINITION. The error codes, the status word and the output ports (spec 10 R26 to R32, 60 R230). The core has no other
flag (10 R35). -/

namespace Sys2Proof.Machine

/-- `ERR_NONE`. -/
def errNone : BitVec 3 := 0
/-- `ERR_ILLEGAL`. -/
def errIllegal : BitVec 3 := 1
/-- `ERR_RSVD`. -/
def errRsvd : BitVec 3 := 2
/-- `ERR_RND`. -/
def errRnd : BitVec 3 := 3
/-- `ERR_NOKEY`. -/
def errNokey : BitVec 3 := 4

/-- The code of a word that is no command (60 R230, R231). -/
def decodeErrorCode : DecodeError → BitVec 3
  | .illegal => errIllegal
  | .reserved => errRsvd

/-- The status word: `BUSY` in bit 0, `DONE` in bit 1, `KEY_VALID` in bit 2, `ERR` in bits 5:3, bits 7:6 zero (10 R30). -/
def statusWord (s : State) : BitVec 8 :=
  0#2 ++ s.err ++ BitVec.ofBool s.keyValid ++ BitVec.ofBool s.done ++ BitVec.ofBool s.busy

/-- `cmd_ready = (FSM = IDLE) and (rst = 0)` (10 R32). -/
def cmdReady (rst : Bool) (s : State) : Bool := s.fsm == .idle && !rst

/-- What the host reads on the output ports in a cycle in which it drives `rst` (10 R20, R34). Reading has no side effect
(20 R58). Nothing can be observed before the first reset (70 R263, 93 U1). -/
def observe (rst : Bool) (s : State) : Option Outputs :=
  if s.initialised then
    some { cmdReady := cmdReady rst s, dout := s.dout, y := s.y, status := statusWord s }
  else none

end Sys2Proof.Machine
end

