-- ==== Sys2Proof/Machine/KeySchedule.lean ====
section
/-! DEFINITION. The key expansion (spec file 42, section 1). -/

namespace Sys2Proof.Machine

/-- `ROUND_CONST[0..9]` (42 R151). -/
def roundConst (i : Nat) : Byte :=
  ([0x01, 0x02, 0x04, 0x08, 0x10, 0x20, 0x40, 0x80, 0x1B, 0x36] : List Byte).getD i 0

/-- Rotate a column up by one position: row 1 moves to row 0 (42 R152). -/
def rotColumn (t : Column) : Column := rowOf t 1 ++ rowOf t 2 ++ rowOf t 3 ++ rowOf t 0

/-- Apply `SBOX_ROM` to each byte of a column (42 R150 step 2). -/
def subColumn (t : Column) : Column :=
  sboxRom (rowOf t 0) ++ sboxRom (rowOf t 1) ++ sboxRom (rowOf t 2) ++ sboxRom (rowOf t 3)

/-- A column with `ROUND_CONST[r-1]` in row 0 and 0 below (42 R150 step 3). -/
def roundConstColumn (r : Nat) : Column := roundConst (r - 1) ++ 0#24

/-- `next(P, r)`: round key `r` from round key `r - 1`, for `r` in 1..10 (42 R150, R157). -/
def nextRoundKey (prev : Block) (r : Nat) : Block :=
  let c0 := column prev 0 ^^^ (subColumn (rotColumn (column prev 3)) ^^^ roundConstColumn r)
  let c1 := c0 ^^^ column prev 1
  let c2 := c1 ^^^ column prev 2
  let c3 := c2 ^^^ column prev 3
  ofColumns c0 c1 c2 c3

/-- `RK[r]`, for `r` in 0..10 (42 R150). -/
def roundKeyOf (key : Block) : Nat → Block
  | 0 => key
  | r + 1 => nextRoundKey (roundKeyOf key r) (r + 1)

/-- `expand(key)`: the 11 round keys (42 R150). -/
def expand (key : Block) : Vector Block 11 :=
  #v[roundKeyOf key 0, roundKeyOf key 1, roundKeyOf key 2, roundKeyOf key 3, roundKeyOf key 4, roundKeyOf key 5,
    roundKeyOf key 6, roundKeyOf key 7, roundKeyOf key 8, roundKeyOf key 9, roundKeyOf key 10]

end Sys2Proof.Machine
end

