-- ==== Sys2Proof/Machine/Ops.lean ====
section
/-! DEFINITION. The named operations over the registers: what a command writes, completion, ending in error, acceptance, the
idle edge, reset (spec 44 R205 to R207, 60 R235, 70 R260). There is no exception to take and none to return from (60 R242): an
error is the completion `endWith` with a nonzero code. -/

namespace Sys2Proof.Machine

/-! ### Register writes of the commands -/

/-- `Y <- v` (10 R23). -/
def State.writeY (s : State) (v : Byte) : State := { s with y := v }

/-- `DOUT <- v`, as RKRD does (10 R22). -/
def State.writeDout (s : State) (v : Block) : State := { s with dout := v }

/-- `STATE <- v; DOUT <- STATE`: every command that writes `STATE` shows it on `dout` (10 R22). -/
def State.writeState (s : State) (v : Block) : State := { s with state := v, dout := v }

/-- `RKT[0..10] <- t; KEY_VALID <- 1`, all entries at once (10 R24, R25). -/
def State.loadTable (s : State) (t : Vector Block 11) : State := { s with rkt := t, keyValid := true }

/-! ### Completion -/

/-- The status part of a completing edge, with error code `e`: `ERR <- e; DONE <- 1; BUSY <- 0; FSM <- IDLE` (44 R205). On a
nonzero `e` nothing else is written (60 R235). -/
def State.endWith (s : State) (e : BitVec 3) : State := { s with err := e, done := true, busy := false, fsm := .idle }

/-- A command that succeeds: its register writes, then the status (44 R205). -/
def succeed (s : State) (writes : State → State) : Host.Outcome State Fault Refusal :=
  .next ((writes s).endWith errNone)

/-- A command that needs something the core may not have: with it, it succeeds; without it, it ends with the error code and
writes no data register (44 R205, 60 R235). -/
def finish {α : Type} (s : State) (operand : Except (BitVec 3) α) (writes : α → State → State) :
    Host.Outcome State Fault Refusal :=
  match operand with
  | .error e => .next (s.endWith e)
  | .ok v => succeed s (writes v)

/-! ### The other edges -/

/-- The edge that accepts a command (44 R206). The command's latency is drawn here: a free value (log entry 2). -/
def State.accept (s : State) (p : Ports) : State :=
  { s with
    cmdr := p.cmd
    dinr := p.din
    keyr := p.keyIn
    cnt := 0
    fsm := .exec
    busy := true
    done := false
    edgesLeft := Config.extraEdges s.draws p.cmd p.din p.keyIn
    draws := s.draws + 1 }

/-- A clock edge with no command offered: `DONE <- 0` (44 R207, 10 R29). -/
def State.idleEdge (s : State) : State := { s with done := false }

/-- An `EXEC` edge that is not the completing one: `DONE <- 0; CNT <- CNT + 1` (44 R213). `CNT` wraps at 6 bits (log entry 7). -/
def State.waitEdge (s : State) : State := { s with done := false, cnt := s.cnt + 1, edgesLeft := s.edgesLeft - 1 }

/-- A rising edge with `rst = 1`: every register takes its reset value (70 R260). What the host does next and the count of
drawn latencies are no registers, and stay (log entry 10). -/
def State.resetEdge (s : State) : State := { State.reset with draws := s.draws, host := s.host }

/-- The clock was gated or the power removed: nothing is known of any register until the next reset edge (60 R248, 93 U19). -/
def State.losePower (s : State) : State := { s with initialised := false }

/-! ### Ports -/

/-- A cycle in which the host drives nothing (log entry 1). -/
def Ports.quiet : Ports := { rst := false, cmdValid := false, cmd := 0, din := 0, keyIn := 0 }

/-- A cycle in which the host asserts reset. -/
def Ports.reset : Ports := { Ports.quiet with rst := true }

/-- A cycle in which the host offers a raw command word: `.word w` of 30 R87, with the port values it drives. -/
def Ports.offerWord (w : CmdWord) (din keyIn : Block) : Ports :=
  { rst := false, cmdValid := true, cmd := w, din := din, keyIn := keyIn }

/-- A cycle in which the host offers a command as the assembler writes it (30 R87). -/
def Ports.offer (i : Instr) (din keyIn : Block) : Ports := Ports.offerWord (encode i) din keyIn

/-- The state in which the next edge completes a command with this word: the word captured in `CMDR`, `FSM = EXEC`, no further
edge to wait, and an edge with `rst = 0` coming (log entry 1). -/
def State.placeCommand (s : State) (w : CmdWord) : State :=
  { s with
    cmdr := w
    cnt := 0
    fsm := .exec
    busy := true
    done := false
    edgesLeft := 0
    initialised := true
    host := .edge Ports.quiet :: s.host }

end Sys2Proof.Machine
end

