-- ==== Sys2Proof/Machine/Operands.lean ====
section
/-! DEFINITION. The operand forms that need more than the word: the round-key table and one of its entries, with the checks
that guard them; and the whole error procedure (spec 30 R82, R85, 60 R230 to R236). The byte operands are fields of the word
(Decode.lean); the block operand is `DINR` and the key operand `KEYR` (30 R82). -/

namespace Sys2Proof.Machine

/-- The whole round-key table, for ENC and DEC: `ERR_NOKEY` while no key is loaded (60 R233). -/
def tableOperand (s : State) : Except (BitVec 3) (Vector Block 11) :=
  if s.keyValid then .ok s.rkt else .error errNokey

/-- Round key `RND`, for RKRD and ARK: the range is checked before the key (30 R85, 60 R232, R233, R236). -/
def roundKeyOperand (s : State) (rnd : BitVec 4) : Except (BitVec 3) Block :=
  if h : validRound rnd then
    if s.keyValid then .ok (s.rkt[rnd.toNat]'(Nat.lt_succ_of_le h)) else .error errNokey
  else .error errRnd

/-- The error code an operand ends a command with, if any. -/
def operandError {α : Type} : Except (BitVec 3) α → Option (BitVec 3)
  | .error e => some e
  | .ok _ => none

/-- The error a decoded command ends with, if any: the last two checks of 30 R85. -/
def commandError (i : Instr) (s : State) : Option (BitVec 3) :=
  match i with
  | .rkrd rnd => operandError (roundKeyOperand s rnd)
  | .ark rnd => operandError (roundKeyOperand s rnd)
  | .enc => operandError (tableOperand s)
  | .dec => operandError (tableOperand s)
  | .nop | .gfmul _ _ | .gfinv _ | .sbox _ | .invsbox _ | .keyexp | .ldst | .subb | .invsubb | .shr | .invshr | .mixc
  | .invmixc => none

/-- The error the captured command word ends with, if any: all the checks of 30 R85, in its order. -/
def wordError (s : State) : Option (BitVec 3) :=
  match decode s.cmdr with
  | .error e => some (decodeErrorCode e)
  | .ok i => commandError i s

end Sys2Proof.Machine
end

