-- ==== Sys2Proof/Machine/BlockCommands.lean ====
section
/-! DEFINITION. The commands NOP, ENC and DEC (spec 44 R202 to R204). -/

namespace Sys2Proof.Machine

/-- NOP: nothing but the status (44 R202). -/
def execNop (s : State) : Host.Outcome State Fault Refusal := succeed s fun s => s

/-- ENC: `STATE <- encryptBlock(DINR, RKT); DOUT <- STATE` (44 R203). -/
def execEnc (s : State) : Host.Outcome State Fault Refusal :=
  finish s (tableOperand s) fun rk s => s.writeState (encryptBlock s.dinr rk)

/-- DEC: `STATE <- decryptBlock(DINR, RKT); DOUT <- STATE` (44 R204). -/
def execDec (s : State) : Host.Outcome State Fault Refusal :=
  finish s (tableOperand s) fun rk s => s.writeState (decryptBlock s.dinr rk)

end Sys2Proof.Machine
end

