-- ==== Sys2Proof/Machine/FieldCommands.lean ====
section
/-! DEFINITION. The field commands GFMUL and GFINV (spec 40 R117, R118). -/

namespace Sys2Proof.Machine

/-- GFMUL: `Y <- gmul(A, B)` (40 R117). -/
def execGfmul (a b : Byte) (s : State) : Host.Outcome State Fault Refusal := succeed s fun s => s.writeY (gmul a b)

/-- GFINV: `Y <- ginv(A)` (40 R118). -/
def execGfinv (a : Byte) (s : State) : Host.Outcome State Fault Refusal := succeed s fun s => s.writeY (ginv a)

end Sys2Proof.Machine
end

