-- ==== Sys2Proof/Machine/KeyCommands.lean ====
section
/-! DEFINITION. The key commands KEYEXP and RKRD (spec 42 R155, R156). -/

namespace Sys2Proof.Machine

/-- KEYEXP: `RKT <- expand(KEYR); KEY_VALID <- 1` (42 R155). -/
def execKeyexp (s : State) : Host.Outcome State Fault Refusal := succeed s fun s => s.loadTable (expand s.keyr)

/-- RKRD: `DOUT <- RKT[RND]` (42 R156). -/
def execRkrd (rnd : BitVec 4) (s : State) : Host.Outcome State Fault Refusal :=
  finish s (roundKeyOperand s rnd) fun key s => s.writeDout key

end Sys2Proof.Machine
end

