-- ==== Sys2Proof/Machine/SboxCommands.lean ====
section
/-! DEFINITION. The substitution commands SBOX and INVSBOX (spec 41 R139, R140). -/

namespace Sys2Proof.Machine

/-- SBOX: `Y <- SBOX_ROM[A]` (41 R139). -/
def execSbox (a : Byte) (s : State) : Host.Outcome State Fault Refusal := succeed s fun s => s.writeY (sboxRom a)

/-- INVSBOX: `Y <- INV_SBOX_ROM[A]` (41 R140). -/
def execInvsbox (a : Byte) (s : State) : Host.Outcome State Fault Refusal := succeed s fun s => s.writeY (invSboxRom a)

end Sys2Proof.Machine
end

