-- ==== Sys2Proof/Machine/StageCommands.lean ====
section
/-! DEFINITION. The single-stage commands on `STATE` (spec 43 R180 to R187). -/

namespace Sys2Proof.Machine

/-- LDST: `STATE <- DINR; DOUT <- STATE` (43 R180). -/
def execLdst (s : State) : Host.Outcome State Fault Refusal := succeed s fun s => s.writeState s.dinr

/-- SUBB: `STATE <- SubBytes(STATE); DOUT <- STATE` (43 R181). -/
def execSubb (s : State) : Host.Outcome State Fault Refusal := succeed s fun s => s.writeState (subBytes s.state)

/-- INVSUBB: `STATE <- InvSubBytes(STATE); DOUT <- STATE` (43 R182). -/
def execInvsubb (s : State) : Host.Outcome State Fault Refusal := succeed s fun s => s.writeState (invSubBytes s.state)

/-- SHR: `STATE <- ShiftRows(STATE); DOUT <- STATE` (43 R183). -/
def execShr (s : State) : Host.Outcome State Fault Refusal := succeed s fun s => s.writeState (shiftRows s.state)

/-- INVSHR: `STATE <- InvShiftRows(STATE); DOUT <- STATE` (43 R184). -/
def execInvshr (s : State) : Host.Outcome State Fault Refusal := succeed s fun s => s.writeState (invShiftRows s.state)

/-- MIXC: `STATE <- MixColumns(STATE); DOUT <- STATE` (43 R185). -/
def execMixc (s : State) : Host.Outcome State Fault Refusal := succeed s fun s => s.writeState (mixColumns s.state)

/-- INVMIXC: `STATE <- InvMixColumns(STATE); DOUT <- STATE` (43 R186). -/
def execInvmixc (s : State) : Host.Outcome State Fault Refusal := succeed s fun s => s.writeState (invMixColumns s.state)

/-- ARK: `STATE <- AddRoundKey(STATE, RKT[RND]); DOUT <- STATE` (43 R187). -/
def execArk (rnd : BitVec 4) (s : State) : Host.Outcome State Fault Refusal :=
  finish s (roundKeyOperand s rnd) fun key s => s.writeState (addRoundKey s.state key)

end Sys2Proof.Machine
end

