-- ==== Sys2Proof/Machine/Dispatch.lean ====
section
/-! DEFINITION. The completing edge of a decoded command, one arm per command (spec 44 R205, R207). -/

namespace Sys2Proof.Machine

def exec (i : Instr) (s : State) : Host.Outcome State Fault Refusal :=
  match i with
  | .nop => Sys2Proof.Machine.execNop s
  | .gfmul a b => Sys2Proof.Machine.execGfmul a b s
  | .gfinv a => Sys2Proof.Machine.execGfinv a s
  | .sbox a => Sys2Proof.Machine.execSbox a s
  | .invsbox a => Sys2Proof.Machine.execInvsbox a s
  | .keyexp => Sys2Proof.Machine.execKeyexp s
  | .rkrd rnd => Sys2Proof.Machine.execRkrd rnd s
  | .enc => Sys2Proof.Machine.execEnc s
  | .dec => Sys2Proof.Machine.execDec s
  | .ldst => Sys2Proof.Machine.execLdst s
  | .subb => Sys2Proof.Machine.execSubb s
  | .invsubb => Sys2Proof.Machine.execInvsubb s
  | .shr => Sys2Proof.Machine.execShr s
  | .invshr => Sys2Proof.Machine.execInvshr s
  | .mixc => Sys2Proof.Machine.execMixc s
  | .invmixc => Sys2Proof.Machine.execInvmixc s
  | .ark rnd => Sys2Proof.Machine.execArk rnd s

end Sys2Proof.Machine
end

