-- ==== Sys2Proof/Machine/Sequencer.lean ====
section
/-! DEFINITION. The reference sequencers: what each `EXEC` edge does to the hidden registers (spec 40 R115, R116, 42 R157,
44 R210, R211, R213). No output and no meaning of a command reads a hidden register (10 R45). -/

namespace Sys2Proof.Machine

/-! ### The bit-serial multiplier (40 R115) -/

/-- `GA <- a; GB <- b; GACC <- 0; GSTEP <- 7`. -/
def State.mulStart (s : State) (a b : Byte) : State := { s with ga := a, gb := b, gacc := 0, gstep := 7 }

/-- One cycle: `GACC <- xtime(GACC) ^ (GA if GB[GSTEP] = 1 else 0)`, and `GSTEP` counts down to 0. -/
def State.mulCycle (s : State) : State :=
  { s with
    gacc := xtime s.gacc ^^^ (if s.gb.getLsbD s.gstep.toNat then s.ga else 0)
    gstep := if s.gstep = 0 then 0 else s.gstep - 1 }

/-- Step `n` of GFMUL, for `n` in 1..8; later edges change nothing. The start is part of step 1 (log entry 5). -/
def mulStep (a b : Byte) (n : Nat) (s : State) : State :=
  if n = 1 then (s.mulStart a b).mulCycle
  else if n ≤ 8 then s.mulCycle
  else s

/-! ### The Itoh-Tsujii inverter (40 R116) -/

/-- The operands of multiplication `m` of the inverter, for `m` in 0..3, from the operand `a` and the product `beta` of the
multiplication before it (log entry 6): `beta_2`, `beta_3`, `beta_6`, `beta_7`. -/
def inverterOperands (m : Nat) (a beta : Byte) : Byte × Byte :=
  match m with
  | 0 => (gsquare a, a)
  | 1 => (gsquare beta, a)
  | 2 => (gsquare (gsquare (gsquare beta)), beta)
  | _ => (gsquare beta, a)

/-- Step `n` of GFINV, for `n` in 1..32: four multiplications of eight steps; later edges change nothing. -/
def invStep (a : Byte) (n : Nat) (s : State) : State :=
  if 32 < n then s
  else if (n - 1) % 8 = 0 then
    let operands := inverterOperands ((n - 1) / 8) a s.gacc
    (s.mulStart operands.1 operands.2).mulCycle
  else s.mulCycle

/-! ### The key-expansion sequencer (42 R157) -/

/-- Cycle `k` from the previous round key: `SHADOW[k] <- next(prev, k); WKEY <- SHADOW[k]; RCNT <- k + 1`. -/
def State.keyCycle (s : State) (prev : Block) (k : Nat) : State :=
  { s with
    shadow := s.shadow.setIfInBounds (k - 1) (nextRoundKey prev k)
    wkey := nextRoundKey prev k
    rcnt := BitVec.ofNat 4 (k + 1) }

/-- Step `n` of KEYEXP: cycle 1 from `KEYR` at the first edge (log entry 5), then cycle `RCNT` from `WKEY`, up to cycle 10. -/
def keyStep (n : Nat) (s : State) : State :=
  if n = 1 then s.keyCycle s.keyr 1
  else if 1 ≤ s.rcnt.toNat ∧ s.rcnt.toNat ≤ 10 then s.keyCycle s.wkey s.rcnt.toNat
  else s

/-! ### The ENC and DEC sequencers (44 R210, R211) -/

/-- Step `n` of ENC: `WORK <- DINR ^ RKT[0]; RCNT <- 1` at the first edge, then round `RCNT` up to round 9. -/
def encStep (n : Nat) (s : State) : State :=
  if n = 1 then { s with work := addRoundKey s.dinr (s.rkt.get 0), rcnt := 1 }
  else if h : 1 ≤ s.rcnt.toNat ∧ s.rcnt.toNat ≤ 9 then
    { s with work := encryptRound s.work (s.rkt[s.rcnt.toNat]'(by omega)), rcnt := s.rcnt + 1 }
  else s

/-- Step `n` of DEC: `WORK <- DINR ^ RKT[10]; RCNT <- 9` at the first edge, then round `RCNT` down to round 1. -/
def decStep (n : Nat) (s : State) : State :=
  if n = 1 then { s with work := addRoundKey s.dinr (s.rkt.get 10), rcnt := 9 }
  else if h : 1 ≤ s.rcnt.toNat ∧ s.rcnt.toNat ≤ 9 then
    { s with work := decryptRound s.work (s.rkt[s.rcnt.toNat]'(by omega)), rcnt := s.rcnt - 1 }
  else s

/-! ### All commands -/

/-- The sequencer step number `CNT + 1` of a command (44 R213). A one-stage command has a single step and no hidden register. -/
def seqStep (i : Instr) (s : State) : State :=
  match i with
  | .gfmul a b => mulStep a b (s.cnt.toNat + 1) s
  | .gfinv a => invStep a (s.cnt.toNat + 1) s
  | .keyexp => keyStep (s.cnt.toNat + 1) s
  | .enc => encStep (s.cnt.toNat + 1) s
  | .dec => decStep (s.cnt.toNat + 1) s
  | .nop | .sbox _ | .invsbox _ | .rkrd _ | .ldst | .subb | .invsubb | .shr | .invshr | .mixc | .invmixc | .ark _ => s

/-- What an `EXEC` edge does to the hidden registers: nothing for a word that ends in error (60 R235, log entry 8). -/
def sequencerEdge (s : State) : State :=
  match decode s.cmdr with
  | .error _ => s
  | .ok i => if (commandError i s).isSome then s else seqStep i s

end Sys2Proof.Machine
end

