-- ==== Sys2Proof/Machine/Clock.lean ====
section
/-! DEFINITION. One rising edge of the clock, and the moves of the transaction level (spec 44 R205 to R207, R213, 70 R260). -/

namespace Sys2Proof.Machine

/-- The Complete move on the captured word: a word that is no command ends with its code, a command completes as its meaning
says (44 R207, 30 R85). -/
def completeWord (s : State) : Host.Outcome State Fault Refusal :=
  match decode s.cmdr with
  | .error e => .next (s.endWith (decodeErrorCode e))
  | .ok i => exec i s

/-- Whether this `EXEC` edge is the completing one: an error completes at the first (60 R235, log entry 3), a command without
error when its latency has run out (44 R213, log entry 2). -/
def completesNow (s : State) : Bool := (wordError s).isSome || s.edgesLeft == 0

/-- An `EXEC` edge: the sequencer step, then completion or one more cycle (44 R213). -/
def execEdge (s : State) : Host.Outcome State Fault Refusal :=
  if completesNow s then completeWord (sequencerEdge s) else .next (sequencerEdge s).waitEdge

/-- An `IDLE` edge: a command is accepted if one is offered, and otherwise `DONE` falls (44 R206, R207). -/
def idleOrAccept (p : Ports) (s : State) : State := if p.cmdValid then s.accept p else s.idleEdge

/-- One rising edge with the given port values. Reset takes precedence over acceptance and completion (70 R260). -/
def clockEdge (p : Ports) (s : State) : Host.Outcome State Fault Refusal :=
  if p.rst then .next s.resetEdge
  else if s.initialised then
    match s.fsm with
    | .idle => .next (idleOrAccept p s)
    | .exec => execEdge s
  else .fault .beforeReset

/-- One event of the host: the next of its list, or a quiet edge when the list is exhausted (log entry 1). -/
def hostStep (edge : Ports → State → Host.Outcome State Fault Refusal) (s : State) : Host.Outcome State Fault Refusal :=
  match s.host with
  | [] => edge Ports.quiet s
  | .edge p :: rest => edge p { s with host := rest }
  | .powerLoss :: rest => .next ({ s with host := rest }).losePower

/-! ### Transactions: the moves Accept and Complete, with no edge counted between them (44 R207) -/

/-- A command offered to an idle core, from acceptance to completion. -/
def transact (p : Ports) (s : State) : Host.Outcome State Fault Refusal := completeWord (s.accept p)

/-- Commands offered one after the other, each after the one before it has completed. -/
def transactAll : List Ports → State → Host.Outcome State Fault Refusal
  | [], s => .next s
  | p :: ps, s =>
    match transact p s with
    | .next t => transactAll ps t
    | .fault f => .fault f
    | .refused r => .refused r

end Sys2Proof.Machine
end

