-- ==== Sys2Proof/Machine/Step.lean ====
section
/-! DEFINITION. One step of the machine: one event of the host (spec 44 R207, 10 R20). -/

namespace Sys2Proof.Machine

/-- One step: the host's next event, a rising edge but for a power loss. -/
def step (s : State) : Host.Outcome State Fault Refusal := Sys2Proof.Machine.hostStep Sys2Proof.Machine.clockEdge s

/-- The state whose next step completes the command with this word in the opcode table's numbering (log entry 1): the core
fetches nothing, so the word stands where acceptance puts it, in `CMDR` with `FSM = EXEC`. -/
def State.withFetchWord (s : State) (nbits w : Nat) : State := s.placeCommand (tableWord nbits w)

end Sys2Proof.Machine
end

