-- ==== Sys2Proof/Machine/Memory.lean ====
section
/-! DEFINITION. The three internal memories as byte-addressed spaces (spec 00 R14, 20 R50, R51). The host reaches them only
through commands. -/

namespace Sys2Proof.Machine

/-- The internal memories, and no others (20 R50). -/
inductive Space where
  | sboxRom
  | invSboxRom
  | rkt
  deriving DecidableEq, Repr

/-- The byte size of a space (20 R50). -/
def spaceSize : Space → Nat
  | .sboxRom => 256
  | .invSboxRom => 256
  | .rkt => 176

/-- One byte of a space, absent beyond its size: byte `k` of entry `r` of `RKT` is at `16r + k`, and the byte addresses 176 to
255 do not exist (20 R51). -/
def readByte (s : State) (sp : Space) (a : Nat) : Option Byte :=
  match sp with
  | .sboxRom => if a < 256 then some (sboxRom (BitVec.ofNat 8 a)) else none
  | .invSboxRom => if a < 256 then some (invSboxRom (BitVec.ofNat 8 a)) else none
  | .rkt => (s.rkt[a / 16]?).map fun v => byteAt v (a % 16)

/-- `MemRead(space, addr, n)`: `n` bytes from `addr` on, in rising address order (00 R14); absent if any of them is. -/
def memRead (s : State) (sp : Space) (addr n : Nat) : Option (List Byte) :=
  (List.range n).mapM fun k => readByte s sp (addr + k)

/-- `MemWrite(RKT, 16r, 16, v)`: entry `r` of the table (00 R14). Entries 11 to 15 do not exist, and then nothing is written. -/
def memWriteRkt (s : State) (r : Nat) (v : Block) : State := { s with rkt := s.rkt.setIfInBounds r v }

end Sys2Proof.Machine
end

