-- ==== Sys2Proof/Machine/Pseudo.lean ====
section
/-! DEFINITION. The pseudo-commands and the stage sequences made of them (spec 30 R88, 44 R214). -/

namespace Sys2Proof.Machine

/-- `ENCROUND r` (30 R88). -/
def encRoundCommands (r : BitVec 4) : List Instr := [.subb, .shr, .mixc, .ark r]

/-- `ENCLAST` (30 R88). -/
def encLastCommands : List Instr := [.subb, .shr, .ark 10]

/-- `DECROUND r` (30 R88). -/
def decRoundCommands (r : BitVec 4) : List Instr := [.invshr, .invsubb, .ark r, .invmixc]

/-- `DECLAST` (30 R88). -/
def decLastCommands : List Instr := [.invshr, .invsubb, .ark 0]

/-- `XTIME a` (30 R88). -/
def xtimeCommands (a : Byte) : List Instr := [.gfmul a 0x02]

/-- `GFSQR a` (30 R88). -/
def gfsqrCommands (a : Byte) : List Instr := [.gfmul a a]

/-- `LDST`, `ARK 0`, `ENCROUND 1` .. `ENCROUND 9`, `ENCLAST` (44 R214). -/
def stageEncryptCommands : List Instr :=
  [.ldst, .ark 0] ++ ([1, 2, 3, 4, 5, 6, 7, 8, 9] : List (BitVec 4)).flatMap encRoundCommands ++ encLastCommands

/-- `LDST`, `ARK 10`, `DECROUND 9` .. `DECROUND 1`, `DECLAST` (44 R214). -/
def stageDecryptCommands : List Instr :=
  [.ldst, .ark 10] ++ ([9, 8, 7, 6, 5, 4, 3, 2, 1] : List (BitVec 4)).flatMap decRoundCommands ++ decLastCommands

/-- Commands issued in order by a host that drives the same operands with each (30 R87: commands that do not use a port value
do not care). -/
def issueAll (is : List Instr) (din keyIn : Block) (s : State) : Host.Outcome State Fault Refusal :=
  transactAll (is.map fun i => Ports.offer i din keyIn) s

end Sys2Proof.Machine
end

