-- ==== Sys2Proof/Machine/Reference.lean ====
section
/-! DEFINITION. The reference control FSM as the spec gives it: the reference latencies, and results taken from the
sequencer's registers (spec 44 R210 to R213, 40 R115, R116, 42 R157). One implementation of Machine/Clock.lean's edge. -/

namespace Sys2Proof.Machine

/-- `LAT(op)` of the reference design, for a command that does not end in error (44 R212). -/
def refLatency : Instr → Nat
  | .gfmul _ _ => 8
  | .gfinv _ => 32
  | .keyexp => 10
  | .enc | .dec => 11
  | .nop | .sbox _ | .invsbox _ | .rkrd _ | .ldst | .subb | .invsubb | .shr | .invshr | .mixc | .invmixc | .ark _ => 1

/-- The table the key-expansion sequencer writes: `RKT[0] <- KEYR; RKT[1..10] <- SHADOW[1..10]` (42 R157). -/
def shadowTable (s : State) : Vector Block 11 :=
  #v[s.keyr, s.shadow.get 0, s.shadow.get 1, s.shadow.get 2, s.shadow.get 3, s.shadow.get 4, s.shadow.get 5, s.shadow.get 6,
    s.shadow.get 7, s.shadow.get 8, s.shadow.get 9]

/-- The completing edge of the reference design, after its sequencer step: the result is read from the hidden registers
(40 R115, R116, 42 R157, 44 R210, R211). One-stage commands compute it in that edge. -/
def refComplete (i : Instr) (s : State) : Host.Outcome State Fault Refusal :=
  match i with
  | .gfmul _ _ => succeed s fun s => s.writeY s.gacc
  | .gfinv _ => succeed s fun s => s.writeY (gsquare s.gacc)
  | .keyexp => succeed s fun s => s.loadTable (shadowTable s)
  | .enc => succeed s fun s => s.writeState (encryptLast s.work (s.rkt.get 10))
  | .dec => succeed s fun s => s.writeState (decryptLast s.work (s.rkt.get 0))
  | .nop => exec .nop s
  | .sbox a => exec (.sbox a) s
  | .invsbox a => exec (.invsbox a) s
  | .rkrd rnd => exec (.rkrd rnd) s
  | .ldst => exec .ldst s
  | .subb => exec .subb s
  | .invsubb => exec .invsubb s
  | .shr => exec .shr s
  | .invshr => exec .invshr s
  | .mixc => exec .mixc s
  | .invmixc => exec .invmixc s
  | .ark rnd => exec (.ark rnd) s

/-- An `EXEC` edge of the reference FSM (44 R213): an error completes at once, a command at its reference latency. -/
def refExecEdge (s : State) : Host.Outcome State Fault Refusal :=
  match decode s.cmdr with
  | .error e => .next (s.endWith (decodeErrorCode e))
  | .ok i =>
    match commandError i s with
    | some e => .next (s.endWith e)
    | none =>
      if s.cnt.toNat + 1 = refLatency i then refComplete i (seqStep i s) else .next (seqStep i s).waitEdge

/-- One rising edge of the reference FSM (44 R213). -/
def refClockEdge (p : Ports) (s : State) : Host.Outcome State Fault Refusal :=
  if p.rst then .next s.resetEdge
  else if s.initialised then
    match s.fsm with
    | .idle => .next (idleOrAccept p s)
    | .exec => refExecEdge s
  else .fault .beforeReset

/-- The reference machine's step. -/
def refStep (s : State) : Host.Outcome State Fault Refusal := hostStep refClockEdge s

/-- `k` steps of the reference machine, stopping at the first fault or refusal. -/
def refRun : Nat → State → Host.Outcome State Fault Refusal
  | 0, s => .next s
  | k + 1, s =>
    match refStep s with
    | .next t => refRun k t
    | .fault f => .fault f
    | .refused r => .refused r

end Sys2Proof.Machine
end

