-- ==== Sys2Proof/Safety.lean ====
section
/-! DEFINITION. The terms the claims use: the invariant of the machine, the registers a command may write, the error a word
ends with, what is visible, quiet stretches of edges, and small formulas of the spec written a second way. -/

namespace Sys2Proof.Machine

/-! ### The invariant of the machine -/

/-- What holds of every state from reset on: `BUSY = 1` exactly when `FSM = EXEC` (10 R28); `DONE = 1` only in a cycle after a
completion, so with `FSM = IDLE` (10 R29); `ERR` is one of the five codes (60 R230); the table is as reset left it while
`KEY_VALID = 0`, and the expansion of some key while `KEY_VALID = 1` (10 R25, R40). -/
structure State.Inv (s : State) : Prop where
  busyExec : s.busy = true ↔ s.fsm = .exec
  doneIdle : s.done = true → s.fsm = .idle
  errCode : s.err.toNat ≤ 4
  tableEmpty : s.keyValid = false → ∀ r : Fin 11, s.rkt.get r = 0
  tableExpanded : s.keyValid = true → ∃ key, s.rkt = expand key

/-- The invariant from the last reset edge on. Of a core that has had none since power-up or a power loss it says nothing (60 R248,
93 U1, U19; log entry 9). -/
def State.InvSinceReset (s : State) : Prop := s.initialised = true → s.Inv

/-! ### Which command writes what (10 R33) -/

/-- The commands that write `STATE` (10 R21). -/
def writesState : Instr → Bool
  | .enc | .dec | .ldst | .subb | .invsubb | .shr | .invshr | .mixc | .invmixc | .ark _ => true
  | .nop | .gfmul _ _ | .gfinv _ | .sbox _ | .invsbox _ | .keyexp | .rkrd _ => false

/-- The commands that write `DOUT` (10 R22). -/
def writesDout : Instr → Bool
  | .rkrd _ | .enc | .dec | .ldst | .subb | .invsubb | .shr | .invshr | .mixc | .invmixc | .ark _ => true
  | .nop | .gfmul _ _ | .gfinv _ | .sbox _ | .invsbox _ | .keyexp => false

/-- The commands that write `Y` (10 R23). -/
def writesY : Instr → Bool
  | .gfmul _ _ | .gfinv _ | .sbox _ | .invsbox _ => true
  | .nop | .keyexp | .rkrd _ | .enc | .dec | .ldst | .subb | .invsubb | .shr | .invshr | .mixc | .invmixc | .ark _ => false

/-- The commands that read `RKT` and `KEY_VALID` (10 R24, R25). -/
def readsTable : Instr → Bool
  | .rkrd _ | .ark _ | .enc | .dec => true
  | .nop | .gfmul _ _ | .gfinv _ | .sbox _ | .invsbox _ | .keyexp | .ldst | .subb | .invsubb | .shr | .invshr | .mixc
  | .invmixc => false

/-! ### The command word, a second time, by its bits (30 R81, R85) -/

/-- A reserved field of the word is nonzero. -/
abbrev reservedSet (w : CmdWord) : Prop := w.extractLsb' 5 3 ≠ 0#3 ∨ w.extractLsb' 12 4 ≠ 0#4

/-- The error procedure of 30 R85 as a code: 0 where the command's rule is executed. -/
def errorCodeOf (w : CmdWord) (keyValid : Bool) : BitVec 3 :=
  let op := (w.extractLsb' 0 5).toNat
  if op ≥ 0x11 then 1
  else if reservedSet w then 2
  else if op ∈ [0x06, 0x10] ∧ (w.extractLsb' 8 4).toNat > 10 then 3
  else if op ∈ [0x06, 0x10, 0x07, 0x08] ∧ keyValid = false then 4
  else 0

/-- The bits of a word that its opcode looks at: `OP`, both reserved fields, and the fields of the "uses" column of 30 R84. -/
def usedBits (op : BitVec 5) : CmdWord :=
  if op = 0x01 then 0xFFFFF0FF
  else if op = 0x02 ∨ op = 0x03 ∨ op = 0x04 then 0x00FFF0FF
  else if op = 0x06 ∨ op = 0x10 then 0x0000FFFF
  else 0x0000F0FF

/-! ### What is visible, and stretches of edges -/

/-- The registers a host can see the effect of at the transaction level: all but the hidden ones (10 R45) and the model's own. -/
structure Visible where
  state : Block
  dout : Block
  y : Byte
  rkt : Vector Block 11
  keyValid : Bool
  err : BitVec 3
  busy : Bool
  done : Bool
  fsm : Phase
  deriving DecidableEq, Repr

/-- The visible part of a state. -/
def State.visible (s : State) : Visible where
  state := s.state
  dout := s.dout
  y := s.y
  rkt := s.rkt
  keyValid := s.keyValid
  err := s.err
  busy := s.busy
  done := s.done
  fsm := s.fsm

/-- The event the next step takes is a rising edge with these port values (an exhausted list gives a quiet edge). -/
def State.nextPorts (s : State) : Option Ports :=
  match s.host with
  | [] => some Ports.quiet
  | .edge p :: _ => some p
  | .powerLoss :: _ => none

/-- What is left of the host's list after the next step. -/
def State.laterHost (s : State) : List HostEvent := s.host.tail

/-- The next step is the completing edge of the command in flight (44 R205). -/
def State.atCompletion (s : State) : Prop :=
  s.initialised = true ∧ s.fsm = .exec ∧ completesNow s = true ∧ ∃ p, s.nextPorts = some p ∧ p.rst = false

/-- The next step is a reset edge (70 R260). -/
def State.atReset (s : State) : Prop := ∃ p, s.nextPorts = some p ∧ p.rst = true

/-- The next step accepts a command (44 R206). -/
def State.atAcceptance (s : State) : Prop :=
  s.initialised = true ∧ s.fsm = .idle ∧ ∃ p, s.nextPorts = some p ∧ p.rst = false ∧ p.cmdValid = true

/-- The command just captured, if it does not end in error, has its reference latency ahead of it (44 R212). An error completes at
the first `EXEC` edge whatever was drawn (log entry 3). -/
def State.latencyIsReference (s : State) : Prop :=
  ∀ i, decode s.cmdr = .ok i → commandError i s = none → s.edgesLeft + 1 = refLatency i

/-! ### Formulas of the spec written a second way -/

/-- Coefficient `k` of the product over GF(2) of two polynomials given by their coefficients (40 R110). -/
def productCoeff (p q : Nat → Bool) (k : Nat) : Bool :=
  (List.range (k + 1)).foldl (fun acc i => acc ^^ (p i && q (k - i))) false

/-- Row `i` of a circulant 8 x 8 matrix applied to a byte: row 0 lists the entries for input bits 0 to 7, and row `i` is row 0
rotated right by `i` (41 R132, R133). -/
def circulantRow (row0 : List Bool) (i : Nat) (q : Byte) : Bool :=
  (List.range 8).foldl (fun acc j => acc ^^ (row0.getD ((j + 8 - i) % 8) false && q.getLsbD j)) false

/-- Word `i` of the expanded key, `w[4r + c] = col(RK[r], c)` for `i` in 0..43 (42 R153). -/
def scheduleWord (key : Block) (i : Nat) : Column := column (((expand key)[i / 4]?).getD 0) (i % 4)

/-- The first `n` steps of a command's sequencer, from a state with `CNT = 0` (44 R213). -/
def sequencerSteps (i : Instr) : Nat → State → State
  | 0, s => s
  | n + 1, s => (seqStep i (sequencerSteps i n s)).waitEdge

end Sys2Proof.Machine
end

