-- ==== Sys2Proof/Certificates/Slice0/Obligations.lean ====
section
/-! DEFINITION. The statements for the provers. -/

open Sys2Proof Sys2Proof.Machine

/-! ### Encoding (spec file 30) -/

/-- Every command's word decodes to that command, with every operand at every value of its field (30 R81, R84, R87). -/
def Obligations.DecodeInvertsEncode : Prop := ∀ i : Instr, decode (encode i) = .ok i

/-- 30 R84: the opcode map over the whole 32-bit word, with each row's match, its mask 0x0000F0FF and the fields it uses. A
word with a nonzero reserved field matches no row. -/
def Obligations.DecodeFollowsOpcodeMap : Prop :=
  ∀ w : CmdWord,
    (w &&& 0x0000F0FF = 0x00000000 → decode w = .ok .nop) ∧
    (w &&& 0x0000F0FF = 0x00000001 → decode w = .ok (.gfmul (w.extractLsb' 16 8) (w.extractLsb' 24 8))) ∧
    (w &&& 0x0000F0FF = 0x00000002 → decode w = .ok (.gfinv (w.extractLsb' 16 8))) ∧
    (w &&& 0x0000F0FF = 0x00000003 → decode w = .ok (.sbox (w.extractLsb' 16 8))) ∧
    (w &&& 0x0000F0FF = 0x00000004 → decode w = .ok (.invsbox (w.extractLsb' 16 8))) ∧
    (w &&& 0x0000F0FF = 0x00000005 → decode w = .ok .keyexp) ∧
    (w &&& 0x0000F0FF = 0x00000006 → decode w = .ok (.rkrd (w.extractLsb' 8 4))) ∧
    (w &&& 0x0000F0FF = 0x00000007 → decode w = .ok .enc) ∧
    (w &&& 0x0000F0FF = 0x00000008 → decode w = .ok .dec) ∧
    (w &&& 0x0000F0FF = 0x00000009 → decode w = .ok .ldst) ∧
    (w &&& 0x0000F0FF = 0x0000000A → decode w = .ok .subb) ∧
    (w &&& 0x0000F0FF = 0x0000000B → decode w = .ok .invsubb) ∧
    (w &&& 0x0000F0FF = 0x0000000C → decode w = .ok .shr) ∧
    (w &&& 0x0000F0FF = 0x0000000D → decode w = .ok .invshr) ∧
    (w &&& 0x0000F0FF = 0x0000000E → decode w = .ok .mixc) ∧
    (w &&& 0x0000F0FF = 0x0000000F → decode w = .ok .invmixc) ∧
    (w &&& 0x0000F0FF = 0x00000010 → decode w = .ok (.ark (w.extractLsb' 8 4))) ∧
    ((w.extractLsb' 0 5).toNat ≥ 0x11 → decode w = .error .illegal) ∧
    ((w.extractLsb' 0 5).toNat < 0x11 → reservedSet w → decode w = .error .reserved)

/-- The other direction: a word that decodes to a command is, on the bits its opcode looks at, the word the encoder gives. -/
def Obligations.DecodedWordIsItsEncoding : Prop :=
  ∀ (w : CmdWord) (i : Instr), decode w = .ok i → encode i = w &&& usedBits i.opcode

/-- 30 R83: the fields an opcode does not use have no effect on the result or on the error; a nonzero reserved field under a
legal opcode ends the command with `ERR_RSVD`. -/
def Obligations.UnusedFieldsAreIgnored : Prop :=
  (∀ (s : State) (w w' : CmdWord), w &&& usedBits (w.extractLsb' 0 5) = w' &&& usedBits (w.extractLsb' 0 5) →
    ∃ t, completeWord { s with cmdr := w } = .next t ∧
      completeWord { s with cmdr := w' } = .next { t with cmdr := w' }) ∧
  (∀ s : State, (s.cmdr.extractLsb' 0 5).toNat < 0x11 → reservedSet s.cmdr →
    completeWord s = .next { s with err := 2, done := true, busy := false, fsm := .idle })

/-- 30 R89: the worked encodings. -/
def Obligations.WorkedEncodings : Prop :=
  encode .nop = 0x00000000 ∧ encode (.gfmul 0x57 0x83) = 0x83570001 ∧ encode (.gfinv 0x53) = 0x00530002 ∧
  encode (.sbox 0x53) = 0x00530003 ∧ encode (.invsbox 0xED) = 0x00ED0004 ∧ encode .keyexp = 0x00000005 ∧
  encode (.rkrd 10) = 0x00000A06 ∧ encode .enc = 0x00000007 ∧ encode .dec = 0x00000008 ∧ encode .ldst = 0x00000009 ∧
  encode .subb = 0x0000000A ∧ encode .invsubb = 0x0000000B ∧ encode .shr = 0x0000000C ∧ encode .invshr = 0x0000000D ∧
  encode .mixc = 0x0000000E ∧ encode .invmixc = 0x0000000F ∧ encode (.ark 0) = 0x00000010 ∧
  encode (.ark 10) = 0x00000A10 ∧
  decode 0x83570001 = .ok (.gfmul 0x57 0x83) ∧ decode 0x00530003 = .ok (.sbox 0x53) ∧
  decode 0x00000A06 = .ok (.rkrd 10) ∧ decode 0x00000009 = .ok .ldst ∧ decode 0x00000007 = .ok .enc ∧
  decode 0x00000011 = .error .illegal ∧ decode 0x00000020 = .error .reserved

/-! ### Field arithmetic (spec file 40) -/

/-- 40 R110: `gmul(a, b)` is the product over GF(2) modulo `m(x) = 0x11B`: with some quotient `q`, `a·b = q·m + gmul(a, b)`,
coefficient by coefficient. -/
def Obligations.GmulIsProductModuloPolynomial : Prop :=
  ∀ a b : Byte, ∃ q : Byte, ∀ k, k < 16 →
    productCoeff a.getLsbD b.getLsbD k =
      (productCoeff q.getLsbD (0x11B#16).getLsbD k ^^ (gmul a b).getLsbD k)

/-- 40 R111: the laws of the field. -/
def Obligations.FieldLaws : Prop :=
  ∀ a b c : Byte,
    gmul a b = gmul b a ∧ gmul (gmul a b) c = gmul a (gmul b c) ∧ gmul a (b ^^^ c) = gmul a b ^^^ gmul a c ∧
    gmul a 0 = 0 ∧ gmul a 1 = a ∧ (gmul a b = 0 → a = 0 ∨ b = 0)

/-- 40 R112: `ginv(0) = 0`, and for `a ≠ 0` it is the unique `b` with `gmul(a, b) = 1`. -/
def Obligations.GinvIsUniqueInverse : Prop :=
  ginv 0 = 0 ∧ ∀ a : Byte, a ≠ 0 → ∀ b : Byte, gmul a b = 1 ↔ b = ginv a

/-- 40 R113: `ginv(a) = a^254` for every byte, and `a^255 = 1` for `a ≠ 0`. -/
def Obligations.GinvIsPower254 : Prop := ∀ a : Byte, ginv a = gpow a 254 ∧ (a ≠ 0 → gpow a 255 = 1)

/-- 40 R114: `xtime(a) = gmul(a, 0x02)`, in the shift form over naturals. -/
def Obligations.XtimeIsTimesTwo : Prop :=
  ∀ a : Byte, xtime a = gmul a 0x02 ∧
    (xtime a).toNat = ((a.toNat <<< 1) &&& 0xFF) ^^^ (if a.getLsbD 7 then 0x1B else 0x00)

/-- 40 R115: the bit-serial multiplier. After `n` of the 8 cycles `GACC` holds the Horner value of the top `n` bits of `b`,
and after the 8th `GACC = gmul(a, b)`. -/
def Obligations.BitSerialMultiplierComputesGmul : Prop :=
  ∀ (s : State) (a b : Byte), s.cnt = 0 →
    (∀ n, n ≤ 7 → (sequencerSteps (.gfmul a b) (n + 1) s).gacc = gmul a (b >>> (7 - n))) ∧
    (sequencerSteps (.gfmul a b) 8 s).gacc = gmul a b

/-- 40 R116: the Itoh-Tsujii inverter. Its four products are `a^3`, `a^7`, `a^63` and `a^127`, and the square of the last is
`ginv(a)`. -/
def Obligations.ItohTsujiiComputesGinv : Prop :=
  ∀ (s : State) (a : Byte), s.cnt = 0 →
    (sequencerSteps (.gfinv a) 8 s).gacc = gpow a 3 ∧ (sequencerSteps (.gfinv a) 16 s).gacc = gpow a 7 ∧
    (sequencerSteps (.gfinv a) 24 s).gacc = gpow a 63 ∧ (sequencerSteps (.gfinv a) 32 s).gacc = gpow a 127 ∧
    gsquare (sequencerSteps (.gfinv a) 32 s).gacc = ginv a

/-- 40 R120: the table of `ginv`, row the high nibble of `a` and column the low nibble, and that every nonzero entry is an inverse. -/
def Obligations.GinvTable : Prop :=
  ∀ a : Byte, (ginv a ≠ 0 → gmul a (ginv a) = 1) ∧ ginv a = romRead
    [0x00018df6cb527bd1e84f29c0b0e1e5c7, 0x74b4aa4b992b605f583ffdccff40eeb2,
     0x3a6e5af1554da8c9c10a98153044a2c2, 0x2c45926cf3396642f235206f77bb5919,
     0x1dfe37672d31f569a764ab135425e909, 0xed5c05ca4c2487bf183e22f051ec6117,
     0x165eafd349a63643f44791df3393213b, 0x79b7978510b5ba3cb670d006a1fa8182,
     0x837e7f809673be569b9e95d9f702b9a4, 0xde6a326dd88a84722a149f88f9dc899a,
     0xfb7c2ec38fb8654826c8124acee7d262, 0x0ce01fef11757871a58e763dbdbc8657,
     0x0b282fa3dad4e40fa92753041bfcace6, 0x7a07ae63c5dbe2ea948bc4d59df8906b,
     0xb10dd6ebc60ecfad084ed7e35d501eb3, 0x5b2338346846038cdd9c7da0cd1a411c] a

/-! ### The substitution box (spec file 41) -/

/-- 41 R131, R134, R135: the ROMs hold `affine(ginv(a))` and `ginv(inv_affine(a))`, with the special cases of 0 and 0x63; they
are inverse to each other, and the S-box has no fixed point and no opposite fixed point. -/
def Obligations.RomsHoldTheSubstitutionMaps : Prop :=
  (∀ a : Byte, sboxRom a = affine (ginv a) ∧ invSboxRom a = ginv (invAffine a)) ∧
  ginv 0 = 0 ∧ affine 0 = 0x63 ∧ sboxRom 0 = 0x63 ∧ invAffine 0x63 = 0 ∧ invSboxRom 0x63 = 0 ∧
  (∀ x : Byte, invSboxRom (sboxRom x) = x ∧ sboxRom (invSboxRom x) = x ∧ sboxRom x ≠ x ∧ sboxRom x ≠ x ^^^ 0xFF)

/-- 41 R132, R133: the affine maps as circulant matrices with the patterns 10001111 and 00100101 and the constants 0x63 and
0x05, each the inverse of the other. -/
def Obligations.AffineMapsAreCirculant : Prop :=
  (∀ (q : Byte) (i : Nat), i < 8 →
    (affine q).getLsbD i =
      (circulantRow [true, false, false, false, true, true, true, true] i q ^^ (0x63#8).getLsbD i) ∧
    (invAffine q).getLsbD i =
      (circulantRow [false, false, true, false, false, true, false, true] i q ^^ (0x05#8).getLsbD i) ∧
    (invAffine q).getLsbD i = circulantRow [false, false, true, false, false, true, false, true] i (q ^^^ 0x63)) ∧
  (∀ i, i < 8 → circulantRow [false, false, true, false, false, true, false, true] i 0x63 = (0x05#8).getLsbD i) ∧
  (∀ q : Byte, invAffine (affine q) = q ∧ affine (invAffine q) = q)

/-! ### The key schedule (spec file 42) -/

/-- 42 R151: the round constants, and that each is `xtime` of the one before it. -/
def Obligations.RoundConstantsArePowers : Prop :=
  (List.range 10).map roundConst = [0x01, 0x02, 0x04, 0x08, 0x10, 0x20, 0x40, 0x80, 0x1B, 0x36] ∧
  roundConst 0 = 0x01 ∧ ∀ i, 1 ≤ i → i ≤ 9 → roundConst i = xtime (roundConst (i - 1))

/-- 42 R153: the expanded key as the recurrence on its 44 columns; and its first round key is the key (42 R154). -/
def Obligations.KeyScheduleRecurrence : Prop :=
  ∀ key : Block, (expand key).get 0 = key ∧
    ∀ i, 4 ≤ i → i ≤ 43 →
      scheduleWord key i = scheduleWord key (i - 4) ^^^
        (if i % 4 = 0 then
          subColumn (rotColumn (scheduleWord key (i - 1))) ^^^ (roundConst (i / 4 - 1) ++ 0#24)
        else scheduleWord key (i - 1))

/-! ### The round stages (spec file 43) -/

/-- 43 R170, R171, R176: the bytewise stages. -/
def Obligations.BytewiseStages : Prop :=
  ∀ (s k : Block) (j : Nat), j < 16 →
    byteAt (subBytes s) j = sboxRom (byteAt s j) ∧ byteAt (invSubBytes s) j = invSboxRom (byteAt s j) ∧
    byteAt (addRoundKey s k) j = byteAt s j ^^^ byteAt k j ∧ addRoundKey s k = s ^^^ k

/-- 43 R172, R173: the row shifts, as matrices and as byte permutations. -/
def Obligations.RowShifts : Prop :=
  ∀ s : Block,
    (∀ r c, r < 4 → c < 4 →
      elemAt (shiftRows s) r c = elemAt s r ((c + r) % 4) ∧ elemAt (invShiftRows s) r c = elemAt s r ((c + 4 - r) % 4)) ∧
    (∀ k, k < 16 →
      byteAt (shiftRows s) k = byteAt s ([0, 5, 10, 15, 4, 9, 14, 3, 8, 13, 2, 7, 12, 1, 6, 11].getD k 0) ∧
      byteAt (invShiftRows s) k = byteAt s ([0, 13, 10, 7, 4, 1, 14, 11, 8, 5, 2, 15, 12, 9, 6, 3].getD k 0)) ∧
    (∀ c, c < 4 → elemAt (shiftRows s) 0 c = elemAt s 0 c)

/-- 43 R174, R175: the column mixes, with row `r` of each matrix its first row rotated right by `r`. -/
def Obligations.ColumnMixes : Prop :=
  ∀ (s : Block) (r c : Nat), r < 4 → c < 4 →
    elemAt (mixColumns s) r c =
      gmul ([0x02, 0x03, 0x01, 0x01].getD ((4 - r) % 4) 0) (elemAt s 0 c) ^^^
      gmul ([0x02, 0x03, 0x01, 0x01].getD ((5 - r) % 4) 0) (elemAt s 1 c) ^^^
      gmul ([0x02, 0x03, 0x01, 0x01].getD ((6 - r) % 4) 0) (elemAt s 2 c) ^^^
      gmul ([0x02, 0x03, 0x01, 0x01].getD ((7 - r) % 4) 0) (elemAt s 3 c) ∧
    elemAt (invMixColumns s) r c =
      gmul ([0x0E, 0x0B, 0x0D, 0x09].getD ((4 - r) % 4) 0) (elemAt s 0 c) ^^^
      gmul ([0x0E, 0x0B, 0x0D, 0x09].getD ((5 - r) % 4) 0) (elemAt s 1 c) ^^^
      gmul ([0x0E, 0x0B, 0x0D, 0x09].getD ((6 - r) % 4) 0) (elemAt s 2 c) ^^^
      gmul ([0x0E, 0x0B, 0x0D, 0x09].getD ((7 - r) % 4) 0) (elemAt s 3 c)

/-- 43 R178: MixColumns in `xtime` form, since `gmul(0x03, a) = xtime(a) ^ a`. -/
def Obligations.MixColumnsXtimeForm : Prop :=
  (∀ a : Byte, gmul 0x03 a = xtime a ^^^ a) ∧
  ∀ (s : Block) (c : Nat), c < 4 →
    let a0 := elemAt s 0 c
    let a1 := elemAt s 1 c
    let a2 := elemAt s 2 c
    let a3 := elemAt s 3 c
    let t := a0 ^^^ a1 ^^^ a2 ^^^ a3
    elemAt (mixColumns s) 0 c = a0 ^^^ t ^^^ xtime (a0 ^^^ a1) ∧
    elemAt (mixColumns s) 1 c = a1 ^^^ t ^^^ xtime (a1 ^^^ a2) ∧
    elemAt (mixColumns s) 2 c = a2 ^^^ t ^^^ xtime (a2 ^^^ a3) ∧
    elemAt (mixColumns s) 3 c = a3 ^^^ t ^^^ xtime (a3 ^^^ a0)

/-- 43 R177: the inverse laws of the stages, and the two commutations. -/
def Obligations.StageInverseLaws : Prop :=
  ∀ s k : Block,
    invSubBytes (subBytes s) = s ∧ subBytes (invSubBytes s) = s ∧
    invShiftRows (shiftRows s) = s ∧ shiftRows (invShiftRows s) = s ∧
    invMixColumns (mixColumns s) = s ∧ mixColumns (invMixColumns s) = s ∧
    addRoundKey (addRoundKey s k) k = s ∧
    subBytes (shiftRows s) = shiftRows (subBytes s) ∧ invSubBytes (invShiftRows s) = invShiftRows (invSubBytes s)

/-! ### The block transforms (spec file 44) -/

/-- 44 R208: decryption undoes encryption, and the converse, for every block and every table. -/
def Obligations.BlockRoundTrip : Prop :=
  ∀ (b : Block) (rk : Vector Block 11),
    decryptBlock (encryptBlock b rk) rk = b ∧ encryptBlock (decryptBlock b rk) rk = b

/-- 44 R214: with a key loaded, the stage commands of one block leave what ENC and DEC leave, whatever latencies are drawn. -/
def Obligations.StageCommandsComposeToBlock : Prop :=
  ∀ (s : State) (b key : Block), s.keyValid = true →
    (∃ t, issueAll stageEncryptCommands b key s = .next t ∧ t.state = encryptBlock b s.rkt ∧ t.dout = t.state ∧
      t.err = 0 ∧ t.rkt = s.rkt ∧ t.y = s.y ∧
      ∃ u, issueAll [.enc] b key s = .next u ∧ u.visible = t.visible) ∧
    (∃ t, issueAll stageDecryptCommands b key s = .next t ∧ t.state = decryptBlock b s.rkt ∧ t.dout = t.state ∧
      t.err = 0 ∧ t.rkt = s.rkt ∧ t.y = s.y ∧
      ∃ u, issueAll [.dec] b key s = .next u ∧ u.visible = t.visible)

/-- 42 R157, 44 R210, R211: the reference sequencers. Ten cycles of key expansion leave the expansion of `KEYR` in `KEYR` and
`SHADOW`; after the ten edges of a block command before its completing one, the last round on `WORK` gives the block transform. -/
def Obligations.SequencersComputeResults : Prop :=
  ∀ s : State, s.cnt = 0 →
    shadowTable (sequencerSteps .keyexp 10 s) = expand s.keyr ∧
    encryptLast (sequencerSteps .enc 10 s).work (s.rkt.get 10) = encryptBlock s.dinr s.rkt ∧
    decryptLast (sequencerSteps .dec 10 s).work (s.rkt.get 0) = decryptBlock s.dinr s.rkt

/-! ### What each command does: its result, its completion and its frame

Every equation names the whole next state: what the record update does not name is unchanged. -/

/-- 44 R202: NOP. -/
def Obligations.NopChangesOnlyStatus : Prop :=
  (∀ s : State, exec .nop s = .next { s with err := 0, done := true, busy := false, fsm := .idle }) ∧
  (∀ s : State, s.cmdr.extractLsb' 0 5 = 0x00 →
    completeWord s = if reservedSet s.cmdr then .next { s with err := 2, done := true, busy := false, fsm := .idle }
      else .next { s with err := 0, done := true, busy := false, fsm := .idle })

/-- 40 R117: GFMUL, from the decoded command and from the captured word, with the rule's corner cases. -/
def Obligations.GfmulWritesProduct : Prop :=
  (∀ (s : State) (a b : Byte),
    exec (.gfmul a b) s = .next { s with y := gmul a b, err := 0, done := true, busy := false, fsm := .idle }) ∧
  (∀ s : State, s.cmdr.extractLsb' 0 5 = 0x01 →
    completeWord s = if reservedSet s.cmdr then .next { s with err := 2, done := true, busy := false, fsm := .idle }
      else .next { s with
        y := gmul (s.cmdr.extractLsb' 16 8) (s.cmdr.extractLsb' 24 8), err := 0, done := true, busy := false, fsm := .idle }) ∧
  (∀ a : Byte, gmul 0 a = 0 ∧ gmul a 0 = 0 ∧ gmul a 0x01 = a ∧ gmul a a = gsquare a) ∧
  gmul 0x80 0x02 = 0x1B ∧ gmul 0xFF 0xFF = 0x13 ∧ gmul 0x57 0x83 = 0xC1

/-- 40 R118: GFINV, from the decoded command and from the captured word, with the rule's corner cases. -/
def Obligations.GfinvWritesInverse : Prop :=
  (∀ (s : State) (a : Byte),
    exec (.gfinv a) s = .next { s with y := ginv a, err := 0, done := true, busy := false, fsm := .idle }) ∧
  (∀ s : State, s.cmdr.extractLsb' 0 5 = 0x02 →
    completeWord s = if reservedSet s.cmdr then .next { s with err := 2, done := true, busy := false, fsm := .idle }
      else .next { s with
        y := ginv (s.cmdr.extractLsb' 16 8), err := 0, done := true, busy := false, fsm := .idle }) ∧
  (∀ a : Byte, (a ≠ 0 → gmul a (ginv a) = 1) ∧ ginv (ginv a) = a) ∧
  ginv 0x00 = 0x00 ∧ ginv 0x01 = 0x01 ∧ ginv 0x53 = 0xCA ∧ ginv 0x02 = 0x8D

/-- 41 R139: SBOX, from the decoded command and from the captured word, with the rule's corner cases. -/
def Obligations.SboxWritesForwardMap : Prop :=
  (∀ (s : State) (a : Byte),
    exec (.sbox a) s = .next { s with y := sboxRom a, err := 0, done := true, busy := false, fsm := .idle }) ∧
  (∀ s : State, s.cmdr.extractLsb' 0 5 = 0x03 →
    completeWord s = if reservedSet s.cmdr then .next { s with err := 2, done := true, busy := false, fsm := .idle }
      else .next { s with
        y := sboxRom (s.cmdr.extractLsb' 16 8), err := 0, done := true, busy := false, fsm := .idle }) ∧
  (∀ a : Byte, sboxRom a = sboxMap a ∧ sboxRom a ≠ a) ∧ sboxRom 0x00 = 0x63 ∧ sboxRom 0xFF = 0x16 ∧ sboxRom 0x53 = 0xED

/-- 41 R140: INVSBOX, from the decoded command and from the captured word, with the rule's corner cases. -/
def Obligations.InvsboxWritesInverseMap : Prop :=
  (∀ (s : State) (a : Byte),
    exec (.invsbox a) s = .next { s with y := invSboxRom a, err := 0, done := true, busy := false, fsm := .idle }) ∧
  (∀ s : State, s.cmdr.extractLsb' 0 5 = 0x04 →
    completeWord s = if reservedSet s.cmdr then .next { s with err := 2, done := true, busy := false, fsm := .idle }
      else .next { s with
        y := invSboxRom (s.cmdr.extractLsb' 16 8), err := 0, done := true, busy := false, fsm := .idle }) ∧
  (∀ a : Byte, invSboxRom a = invSboxMap a ∧ invSboxRom (sboxRom a) = a) ∧
  invSboxRom 0x63 = 0x00 ∧ invSboxRom 0x00 = 0x52 ∧ invSboxRom 0xED = 0x53

/-- 42 R155: KEYEXP loads and expands any key; on a reserved field the table and `KEY_VALID` stay. -/
def Obligations.KeyexpLoadsExpandedKey : Prop :=
  (∀ s : State, exec .keyexp s =
    .next { s with rkt := expand s.keyr, keyValid := true, err := 0, done := true, busy := false, fsm := .idle }) ∧
  (∀ s : State, s.cmdr.extractLsb' 0 5 = 0x05 →
    completeWord s = if reservedSet s.cmdr then .next { s with err := 2, done := true, busy := false, fsm := .idle }
      else .next { s with
        rkt := expand s.keyr, keyValid := true, err := 0, done := true, busy := false, fsm := .idle }) ∧
  (expand 0x2b7e151628aed2a6abf7158809cf4f3c).get 1 = 0xa0fafe1788542cb123a339392a6c7605 ∧
  (expand 0x2b7e151628aed2a6abf7158809cf4f3c).get 10 = 0xd014f9a8c9ee2589e13f0cc8b6630ca6

/-- 42 R156: RKRD reads round key `RND` into `DOUT` alone, and ends with `ERR_RND` and `ERR_NOKEY` as the rule says. -/
def Obligations.RkrdReadsRoundKey : Prop :=
  (∀ (s : State) (rnd : BitVec 4) (h : rnd.toNat < 11), s.keyValid = true →
    exec (.rkrd rnd) s =
      .next { s with dout := s.rkt[rnd.toNat], err := 0, done := true, busy := false, fsm := .idle }) ∧
  (∀ (s : State) (rnd : BitVec 4), rnd.toNat > 10 →
    exec (.rkrd rnd) s = .next { s with err := 3, done := true, busy := false, fsm := .idle }) ∧
  (∀ (s : State) (rnd : BitVec 4), rnd.toNat ≤ 10 → s.keyValid = false →
    exec (.rkrd rnd) s = .next { s with err := 4, done := true, busy := false, fsm := .idle }) ∧
  (∀ s : State, s.cmdr.extractLsb' 0 5 = 0x06 →
    completeWord s = if reservedSet s.cmdr then .next { s with err := 2, done := true, busy := false, fsm := .idle }
      else exec (.rkrd (s.cmdr.extractLsb' 8 4)) s) ∧
  (∀ (s : State) (key : Block), s.keyValid = true → s.rkt = expand key →
    exec (.rkrd 0) s = .next { s with dout := key, err := 0, done := true, busy := false, fsm := .idle }) ∧
  (∀ s : State, s.keyValid = true → s.rkt = expand 0x2b7e151628aed2a6abf7158809cf4f3c →
    ∃ t, exec (.rkrd 10) s = .next t ∧ t.dout = 0xd014f9a8c9ee2589e13f0cc8b6630ca6)

/-- 44 R203, R204: ENC and DEC with a key loaded, without one, and with a reserved field set; the rules' examples. -/
def Obligations.EncDecTransformBlock : Prop :=
  (∀ s : State, s.keyValid = true →
    exec .enc s = .next { s with
      state := encryptBlock s.dinr s.rkt, dout := encryptBlock s.dinr s.rkt,
      err := 0, done := true, busy := false, fsm := .idle } ∧
    exec .dec s = .next { s with
      state := decryptBlock s.dinr s.rkt, dout := decryptBlock s.dinr s.rkt,
      err := 0, done := true, busy := false, fsm := .idle }) ∧
  (∀ s : State, s.keyValid = false →
    exec .enc s = .next { s with err := 4, done := true, busy := false, fsm := .idle } ∧
    exec .dec s = .next { s with err := 4, done := true, busy := false, fsm := .idle }) ∧
  (∀ s : State, s.cmdr.extractLsb' 0 5 = 0x07 →
    completeWord s = if reservedSet s.cmdr then .next { s with err := 2, done := true, busy := false, fsm := .idle }
      else exec .enc s) ∧
  (∀ s : State, s.cmdr.extractLsb' 0 5 = 0x08 →
    completeWord s = if reservedSet s.cmdr then .next { s with err := 2, done := true, busy := false, fsm := .idle }
      else exec .dec s) ∧
  encryptBlock 0 (expand 0) = 0x66e94bd4ef8a2c3b884cfa59ca342b2e ∧
  encryptBlock 0x3243f6a8885a308d313198a2e0370734 (expand 0x2b7e151628aed2a6abf7158809cf4f3c) =
    0x3925841d02dc09fbdc118597196a0b32 ∧
  decryptBlock 0x69c4e0d86a7b0430d8cdb78070b4c55a (expand 0x000102030405060708090a0b0c0d0e0f) =
    0x00112233445566778899aabbccddeeff

/-- 43 R180: LDST. -/
def Obligations.LdstLoadsState : Prop :=
  (∀ s : State, exec .ldst s =
    .next { s with state := s.dinr, dout := s.dinr, err := 0, done := true, busy := false, fsm := .idle }) ∧
  (∀ s : State, s.cmdr.extractLsb' 0 5 = 0x09 →
    completeWord s = if reservedSet s.cmdr then .next { s with err := 2, done := true, busy := false, fsm := .idle }
      else .next { s with state := s.dinr, dout := s.dinr, err := 0, done := true, busy := false, fsm := .idle })

/-- 43 R181, R182: SUBB and INVSUBB, with the rules' corner cases and examples. -/
def Obligations.SubbInvsubbTransformState : Prop :=
  (∀ s : State,
    exec .subb s = .next { s with
      state := subBytes s.state, dout := subBytes s.state, err := 0, done := true, busy := false, fsm := .idle } ∧
    exec .invsubb s = .next { s with
      state := invSubBytes s.state, dout := invSubBytes s.state, err := 0, done := true, busy := false, fsm := .idle }) ∧
  (∀ s : State, s.cmdr.extractLsb' 0 5 = 0x0A →
    completeWord s = if reservedSet s.cmdr then .next { s with err := 2, done := true, busy := false, fsm := .idle }
      else exec .subb s) ∧
  (∀ s : State, s.cmdr.extractLsb' 0 5 = 0x0B →
    completeWord s = if reservedSet s.cmdr then .next { s with err := 2, done := true, busy := false, fsm := .idle }
      else exec .invsubb s) ∧
  (∀ v : Block, invSubBytes (subBytes v) = v) ∧
  subBytes 0 = 0x63636363636363636363636363636363 ∧ sboxRom 0x52 = 0x00 ∧
  invSubBytes 0x63636363636363636363636363636363 = 0 ∧ invSubBytes 0 = 0x52525252525252525252525252525252 ∧
  subBytes 0x193de3bea0f4e22b9ac68d2ae9f84808 = 0xd42711aee0bf98f1b8b45de51e415230 ∧
  invSubBytes 0xd42711aee0bf98f1b8b45de51e415230 = 0x193de3bea0f4e22b9ac68d2ae9f84808

/-- 43 R183, R184: SHR and INVSHR, with the rules' corner cases and examples. -/
def Obligations.ShrInvshrTransformState : Prop :=
  (∀ s : State,
    exec .shr s = .next { s with
      state := shiftRows s.state, dout := shiftRows s.state, err := 0, done := true, busy := false, fsm := .idle } ∧
    exec .invshr s = .next { s with
      state := invShiftRows s.state, dout := invShiftRows s.state, err := 0, done := true, busy := false, fsm := .idle }) ∧
  (∀ s : State, s.cmdr.extractLsb' 0 5 = 0x0C →
    completeWord s = if reservedSet s.cmdr then .next { s with err := 2, done := true, busy := false, fsm := .idle }
      else exec .shr s) ∧
  (∀ s : State, s.cmdr.extractLsb' 0 5 = 0x0D →
    completeWord s = if reservedSet s.cmdr then .next { s with err := 2, done := true, busy := false, fsm := .idle }
      else exec .invshr s) ∧
  (∀ t : Column, shiftRows (t ++ t ++ t ++ t) = t ++ t ++ t ++ t) ∧
  (∀ v : Block, shiftRows (shiftRows (shiftRows (shiftRows v))) = v ∧ invShiftRows (shiftRows v) = v ∧
    invShiftRows v = shiftRows (shiftRows (shiftRows v)) ∧
    byteAt (shiftRows v) 0 = byteAt v 0 ∧ byteAt (shiftRows v) 4 = byteAt v 4 ∧
    byteAt (shiftRows v) 8 = byteAt v 8 ∧ byteAt (shiftRows v) 12 = byteAt v 12) ∧
  shiftRows 0x000102030405060708090a0b0c0d0e0f = 0x00050a0f04090e03080d02070c01060b ∧
  invShiftRows 0x000102030405060708090a0b0c0d0e0f = 0x000d0a0704010e0b0805020f0c090603

/-- 43 R185, R186: MIXC and INVMIXC, with the rules' corner cases and examples. -/
def Obligations.MixcInvmixcTransformState : Prop :=
  (∀ s : State,
    exec .mixc s = .next { s with
      state := mixColumns s.state, dout := mixColumns s.state, err := 0, done := true, busy := false, fsm := .idle } ∧
    exec .invmixc s = .next { s with
      state := invMixColumns s.state, dout := invMixColumns s.state, err := 0, done := true, busy := false, fsm := .idle }) ∧
  (∀ s : State, s.cmdr.extractLsb' 0 5 = 0x0E →
    completeWord s = if reservedSet s.cmdr then .next { s with err := 2, done := true, busy := false, fsm := .idle }
      else exec .mixc s) ∧
  (∀ s : State, s.cmdr.extractLsb' 0 5 = 0x0F →
    completeWord s = if reservedSet s.cmdr then .next { s with err := 2, done := true, busy := false, fsm := .idle }
      else exec .invmixc s) ∧
  (∀ (v : Block) (c : Nat) (b : Byte), c < 4 → (∀ r, r < 4 → elemAt v r c = b) →
    ∀ r, r < 4 → elemAt (mixColumns v) r c = b ∧ elemAt (invMixColumns v) r c = b) ∧
  (∀ v : Block, invMixColumns (mixColumns v) = v ∧ mixColumns (invMixColumns v) = v) ∧
  mixColumns 0 = 0 ∧ invMixColumns 0 = 0 ∧
  mixColumns 0xdb135345f20a225c01010101c6c6c6c6 = 0x8e4da1bc9fdc589d01010101c6c6c6c6 ∧
  invMixColumns 0x8e4da1bc9fdc589d01010101c6c6c6c6 = 0xdb135345f20a225c01010101c6c6c6c6

/-- 43 R187: ARK, and where it ends with `ERR_RND` and `ERR_NOKEY`; twice the same ARK restores `STATE`; `ARK 0` adds the key
itself; the rule's example. -/
def Obligations.ArkAddsRoundKey : Prop :=
  (∀ (s : State) (rnd : BitVec 4) (h : rnd.toNat < 11), s.keyValid = true →
    exec (.ark rnd) s = .next { s with
      state := s.state ^^^ s.rkt[rnd.toNat], dout := s.state ^^^ s.rkt[rnd.toNat],
      err := 0, done := true, busy := false, fsm := .idle }) ∧
  (∀ (s : State) (rnd : BitVec 4), rnd.toNat > 10 →
    exec (.ark rnd) s = .next { s with err := 3, done := true, busy := false, fsm := .idle }) ∧
  (∀ (s : State) (rnd : BitVec 4), rnd.toNat ≤ 10 → s.keyValid = false →
    exec (.ark rnd) s = .next { s with err := 4, done := true, busy := false, fsm := .idle }) ∧
  (∀ s : State, s.cmdr.extractLsb' 0 5 = 0x10 →
    completeWord s = if reservedSet s.cmdr then .next { s with err := 2, done := true, busy := false, fsm := .idle }
      else exec (.ark (s.cmdr.extractLsb' 8 4)) s) ∧
  (∀ (s : State) (rnd : BitVec 4), rnd.toNat ≤ 10 → s.keyValid = true →
    ∃ t u, exec (.ark rnd) s = .next t ∧ exec (.ark rnd) t = .next u ∧ u.state = s.state) ∧
  (∀ (s : State) (key : Block), s.keyValid = true → s.rkt = expand key →
    ∃ t, exec (.ark 0) s = .next t ∧ t.state = s.state ^^^ key) ∧
  (∀ s : State, s.keyValid = true → s.rkt = expand 0x2b7e151628aed2a6abf7158809cf4f3c →
    s.state = 0x3243f6a8885a308d313198a2e0370734 →
    ∃ t, exec (.ark 0) s = .next t ∧ t.state = 0x193de3bea0f4e22b9ac68d2ae9f84808)

/-! ### Errors and frames over all commands -/

/-- 30 R85, 60 R236: every word completes, with the first error of the procedure's order; on an error nothing changes but
`ERR`, `DONE`, `BUSY` and `FSM` (60 R235), and without one the completion is the decoded command's. -/
def Obligations.ErrorProcedureIsFollowed : Prop :=
  ∀ s : State,
    (errorCodeOf s.cmdr s.keyValid ≠ 0 →
      completeWord s =
        .next { s with err := errorCodeOf s.cmdr s.keyValid, done := true, busy := false, fsm := .idle }) ∧
    (errorCodeOf s.cmdr s.keyValid = 0 →
      ∃ i t, decode s.cmdr = .ok i ∧ completeWord s = .next t ∧ exec i s = .next t ∧
        t.err = 0 ∧ t.done = true ∧ t.busy = false ∧ t.fsm = .idle)

/-- 60 R234: the thirteen commands whose functions are total end only with `ERR_NONE` or `ERR_RSVD`. -/
def Obligations.TotalCommandsEndOnlyInNoneOrRsvd : Prop :=
  ∀ s : State, (s.cmdr.extractLsb' 0 5).toNat ∈ [0, 1, 2, 3, 4, 5, 9, 10, 11, 12, 13, 14, 15] →
    ∃ t, completeWord s = .next t ∧ (t.err = 0 ∨ t.err = 2)

/-- 10 R33, and the frame of every command: a register the matrix gives no `w` for is unchanged, and so are the captured and
hidden registers, the model's own fields, and every byte of the three memories unless the command is KEYEXP. -/
def Obligations.CommandsWriteOnlyTheirRegisters : Prop :=
  ∀ (i : Instr) (s t : State), exec i s = .next t →
    (writesState i = false → t.state = s.state) ∧ (writesDout i = false → t.dout = s.dout) ∧
    (writesY i = false → t.y = s.y) ∧
    (i ≠ .keyexp → t.rkt = s.rkt ∧ t.keyValid = s.keyValid ∧ ∀ sp a, readByte t sp a = readByte s sp a) ∧
    (∀ a, readByte t .sboxRom a = readByte s .sboxRom a ∧ readByte t .invSboxRom a = readByte s .invSboxRom a) ∧
    t = { s with
      state := t.state, dout := t.dout, y := t.y, rkt := t.rkt, keyValid := t.keyValid,
      err := t.err, done := true, busy := false, fsm := .idle }

/-- 20 R51, 00 R14: byte `16r + k` of `RKT` is byte `k` of `RKT[r]`, and `MemRead(RKT, 16r, 16)` gives the sixteen bytes of
`RKT[r]`, byte 0 first; the byte addresses from 176 on, and the entries from 11 on, do not exist. KEYEXP's write of the table is
the eleven `MemWrite(RKT, 16r, 16, RK[r])` of 42 R155. -/
def Obligations.TableMemoryIsByteAddressed : Prop :=
  (∀ (s : State) (r k : Nat) (h : r < 11), k < 16 → readByte s .rkt (16 * r + k) = some (byteAt s.rkt[r] k)) ∧
  (∀ (s : State) (a : Nat), 176 ≤ a → readByte s .rkt a = none) ∧
  (∀ (s : State) (r : Nat) (h : r < 11),
    memRead s .rkt (16 * r) 16 = some ((List.range 16).map fun k => byteAt s.rkt[r] k)) ∧
  (∀ (s : State) (r : Nat), 11 ≤ r → memRead s .rkt (16 * r) 16 = none) ∧
  (∀ s : State, exec .keyexp s = .next
    { (List.range 11).foldl (fun s r => memWriteRkt s r (roundKeyOf s.keyr r)) s with
      keyValid := true, err := 0, done := true, busy := false, fsm := .idle })

/-- 44 R209, 10 R33: what a command shows does not depend on what it does not read. ENC and DEC depend on `DINR` and the table
only; a command that reads no table shows the same `STATE`, `DOUT`, `Y` and `ERR` whatever the tables and keys of the two runs
are. -/
def Obligations.ResultsDependOnlyOnOperands : Prop :=
  (∀ s s' : State, s.dinr = s'.dinr → s.rkt = s'.rkt → s.keyValid = true → s'.keyValid = true →
    ∃ t t' u u', exec .enc s = .next t ∧ exec .enc s' = .next t' ∧ t.dout = t'.dout ∧ t.state = t'.state ∧
      exec .dec s = .next u ∧ exec .dec s' = .next u' ∧ u.dout = u'.dout ∧ u.state = u'.state) ∧
  (∀ (i : Instr) (s : State) (rk : Vector Block 11) (kv : Bool) (key : Block), readsTable i = false →
    ∃ t t', exec i s = .next t ∧ exec i { s with rkt := rk, keyValid := kv, keyr := key } = .next t' ∧
      t'.state = t.state ∧ t'.dout = t.dout ∧ t'.y = t.y ∧ t'.err = t.err)

/-! ### The step -/

/-- 44 R205, R207: at a completing edge the step is the meaning of the decoded command, after the host's event is taken off its
list and the sequencer has made its step, which writes hidden registers only. -/
def Obligations.StepRunsDecodedCommand : Prop :=
  (∀ (s : State) (i : Instr), s.atCompletion → decode s.cmdr = .ok i →
    step s = exec i (sequencerEdge { s with host := s.laterHost })) ∧
  (∀ (s : State) (e : DecodeError), s.atCompletion → decode s.cmdr = .error e →
    step s = .next { s with
      host := s.laterHost, err := decodeErrorCode e, done := true, busy := false, fsm := .idle }) ∧
  (∀ s : State, sequencerEdge s = { s with
    rcnt := (sequencerEdge s).rcnt, work := (sequencerEdge s).work, wkey := (sequencerEdge s).wkey,
    shadow := (sequencerEdge s).shadow, gacc := (sequencerEdge s).gacc, ga := (sequencerEdge s).ga,
    gb := (sequencerEdge s).gb, gstep := (sequencerEdge s).gstep }) ∧
  (∀ (s : State) (i : Instr), decode s.cmdr = .ok i → commandError i s ≠ none → sequencerEdge s = s)

/-- 44 R206: an idle core with a command offered captures it, whatever latency is drawn; nothing else changes. -/
def Obligations.AcceptanceCapturesOperands : Prop :=
  ∀ (s : State) (p : Ports) (rest : List HostEvent),
    s.initialised = true → s.fsm = .idle → s.host = .edge p :: rest → p.rst = false → p.cmdValid = true →
    cmdReady p.rst s = true ∧
    ∃ n : Nat, step s = .next { s with
      cmdr := p.cmd, dinr := p.din, keyr := p.keyIn, cnt := 0, fsm := .exec, busy := true, done := false,
      edgesLeft := n, draws := s.draws + 1, host := rest }

/-- 10 R29: `DONE` is 1 after a completing edge and 0 after every other rising edge. -/
def Obligations.DoneIsOneCyclePulse : Prop :=
  ∀ s t : State, step s = .next t → s.nextPorts ≠ none → (t.done = true ↔ s.atCompletion)

/-- 70 R260: a reset edge gives every register its reset value from every state, whatever else the ports hold; no command is
accepted in it; a second one keeps the reset state. What the host does next and the draw count are the model's own. -/
def Obligations.ResetEdgeFromAnyState : Prop :=
  ∀ (s : State) (p : Ports) (rest : List HostEvent), s.host = .edge p :: rest → p.rst = true →
    step s = .next { State.reset with host := rest, draws := s.draws } ∧ cmdReady p.rst s = false ∧
    ∀ (q : Ports) (rest' : List HostEvent), rest = .edge q :: rest' → q.rst = true →
      step { State.reset with host := rest, draws := s.draws } =
        .next { State.reset with host := rest', draws := s.draws }

/-- 10 R40: the reset values. -/
def Obligations.ResetStateValues : Prop :=
  State.reset.state = 0 ∧ State.reset.dout = 0 ∧ State.reset.y = 0x00 ∧ (∀ r : Fin 11, State.reset.rkt.get r = 0) ∧
  State.reset.keyValid = false ∧ State.reset.err = 0 ∧ State.reset.busy = false ∧ State.reset.done = false ∧
  State.reset.fsm = .idle ∧ State.reset.cmdr = 0 ∧ State.reset.dinr = 0 ∧ State.reset.keyr = 0 ∧
  State.reset.work = 0 ∧ State.reset.wkey = 0 ∧ (∀ r : Fin 10, State.reset.shadow.get r = 0) ∧
  State.reset.cnt = 0 ∧ State.reset.rcnt = 0 ∧ State.reset.gstep = 0 ∧ State.reset.gacc = 0 ∧
  State.reset.ga = 0 ∧ State.reset.gb = 0

/-- 70 R262: a reset in the middle of a command abandons it: whatever number of edges without a command follow, there is no
`DONE` pulse and none of its results appears. -/
def Obligations.ResetAbandonsCommand : Prop :=
  ∀ (s : State) (p : Ports) (quiet : List Ports) (rest : List HostEvent),
    s.fsm = .exec → p.rst = true → (∀ q ∈ quiet, q.rst = false ∧ q.cmdValid = false) →
    Sys2Proof.core.run (quiet.length + 1) { s with host := .edge p :: quiet.map .edge ++ rest } =
      .next { State.reset with host := rest, draws := s.draws }

/-- 70 R263 with the treatment of 93 U1 and U19, the model's choice (log entry 9): before the first reset edge, and after a power
loss, nothing can be observed and an edge without reset is a fault; a reset edge starts the core. -/
def Obligations.NothingBeforeFirstReset : Prop :=
  (∀ (s : State) (p : Ports), s.initialised = false → s.nextPorts = some p → p.rst = false →
    step s = .fault .beforeReset) ∧
  (∀ (s : State) (rst : Bool), s.initialised = false → observe rst s = none) ∧
  (∀ s : State, s.nextPorts = none → ∃ t, step s = .next t ∧ t.initialised = false) ∧
  (∀ (s : State), s.atReset → ∃ t, step s = .next t ∧ t.initialised = true)

/-- From reset on no step stops: every step of an initialised core answers a next state (44 R207, 30 R85). That a power loss
clears the model's own flag `initialised` and an edge keeps it is the model's choice (log entry 9) for 60 R248 and 93 U19. -/
def Obligations.InitialisedCoreNeverStops : Prop :=
  ∀ s : State, s.initialised = true → ∃ t, step s = .next t ∧ (t.initialised = true ↔ s.nextPorts ≠ none)

/-- What holds of the registers since the last reset edge is kept by every step (10 R24, R25, R28, R29, R40, 60 R230). Nothing
is claimed of a register after a power loss until the next reset edge, whatever it then holds (60 R248, 93 U19); the flag that
says so, `initialised`, is the model's own (log entry 9). -/
def Obligations.InvariantKeptByEveryStep : Prop :=
  ∀ s t : State, s.InvSinceReset → Sys2Proof.Machine.step s = .next t → t.InvSinceReset

/-- The invariant of the machine holds at reset, where `initialised` is true. -/
def Obligations.InvariantHoldsAtReset : Prop := State.reset.Inv

/-- 70 R275: which rising edge may change which output. A power loss is no edge, and nothing is claimed of it (93 U19). -/
def Obligations.OutputsChangeOnlyAtTheirEdges : Prop :=
  ∀ s t : State, step s = .next t → s.nextPorts ≠ none →
    (t.dout ≠ s.dout ∨ t.y ≠ s.y ∨ t.err ≠ s.err ∨ t.keyValid ≠ s.keyValid → s.atCompletion ∨ s.atReset) ∧
    (s.busy = false → t.busy = true → s.atAcceptance) ∧
    (s.busy = true → t.busy = false → s.atCompletion ∨ s.atReset) ∧
    (t.done = true → s.atCompletion) ∧
    (s.atAcceptance → t.busy = true ∧ t.fsm = .exec) ∧
    (s.atCompletion → t.busy = false ∧ t.done = true ∧ cmdReady false t = true) ∧
    (s.fsm = .idle → t.fsm = .exec → s.atAcceptance) ∧
    (s.fsm = .exec → t.fsm = .idle → s.atCompletion ∨ s.atReset) ∧
    cmdReady true t = false

/-- 60 R243, 70 R272: ports are looked at only where a command is accepted: an offer to a busy core, and operands outside the
accepting cycle, have no effect. -/
def Obligations.PortsSeenOnlyAtAcceptance : Prop :=
  ∀ (s : State) (p q : Ports), p.rst = false → q.rst = false →
    (s.fsm = .exec → cmdReady p.rst s = false ∧ clockEdge p s = clockEdge q s) ∧
    (s.fsm = .idle → p.cmdValid = false → q.cmdValid = false → clockEdge p s = clockEdge q s)

/-- 10 R24, R25, 20 R52: the table and `KEY_VALID` change only where a KEYEXP completes and at reset; only KEYEXP sets
`KEY_VALID`, and only reset clears it. A power loss is no edge, and nothing is claimed of it (60 R248, 93 U19). -/
def Obligations.TableChangesOnlyByKeyexpOrReset : Prop :=
  ∀ s t : State, step s = .next t → s.nextPorts ≠ none →
    (t.rkt ≠ s.rkt ∨ t.keyValid ≠ s.keyValid →
      s.atReset ∨ (s.atCompletion ∧ decode s.cmdr = .ok .keyexp ∧ t.rkt = expand s.keyr ∧ t.keyValid = true)) ∧
    (s.keyValid = true → t.keyValid = false → s.atReset)

/-- 10 R30: the status word, bit by bit. -/
def Obligations.StatusWordLayout : Prop :=
  ∀ s : State,
    (statusWord s).getLsbD 0 = s.busy ∧ (statusWord s).getLsbD 1 = s.done ∧ (statusWord s).getLsbD 2 = s.keyValid ∧
    (statusWord s).extractLsb' 3 3 = s.err ∧ (statusWord s).extractLsb' 6 2 = 0#2

/-- 10 R20, R34: what the output ports of a core show from its first reset edge on. `cmd_ready` is 1 exactly in `IDLE` without
`rst` (10 R32), `dout` and `y` are wires from `DOUT` and `Y`, `status` is the status word (10 R30). No port shows anything else:
cores that agree on these registers look alike, whatever `STATE`, the table and the hidden registers hold (10 R45). -/
def Obligations.OutputPortsAreWires : Prop :=
  (∀ (s : State) (rst : Bool), s.initialised = true →
    ∃ o, observe rst s = some o ∧ (o.cmdReady = true ↔ s.fsm = .idle ∧ rst = false) ∧ o.dout = s.dout ∧ o.y = s.y ∧
      o.status.getLsbD 0 = s.busy ∧ o.status.getLsbD 1 = s.done ∧ o.status.getLsbD 2 = s.keyValid ∧
      o.status.extractLsb' 3 3 = s.err ∧ o.status.extractLsb' 6 2 = 0#2) ∧
  (∀ (s u : State) (rst : Bool), s.initialised = true →
    observe rst { u with
      dout := s.dout, y := s.y, keyValid := s.keyValid, err := s.err, busy := s.busy, done := s.done, fsm := s.fsm,
      initialised := true } = observe rst s)

/-! ### Refinements -/

/-- 44 R205, R207, 00 R18: whatever latency is drawn, a command accepted by an idle core completes after some number `k ≥ 1` of
further edges, if none of them is a reset, whatever else the host drives in them. The visible state is then what the
transaction gives, and in every cycle before it the core is busy with the outputs of the command before. -/
def Obligations.EdgesRefineTransactions : Prop :=
  ∀ (s : State) (p : Ports), s.initialised = true → s.fsm = .idle → p.rst = false → p.cmdValid = true →
    ∃ k, 1 ≤ k ∧ ∀ (qs : List Ports) (rest : List HostEvent), qs.length = k → (∀ q ∈ qs, q.rst = false) →
      (∃ t u, Sys2Proof.core.run (k + 1) { s with host := .edge p :: qs.map .edge ++ rest } = .next t ∧
        transact p s = .next u ∧ t.visible = u.visible ∧ t.host = rest ∧ t.done = true) ∧
      (∀ j, 1 ≤ j → j ≤ k →
        ∃ t, Sys2Proof.core.run j { s with host := .edge p :: qs.map .edge ++ rest } = .next t ∧
          t.visible = { s.visible with busy := true, done := false, fsm := .exec })

/-- 44 R212, R213, with 40 R115, R116, 42 R157, 44 R210, R211: from every state and for every list of host events (offers held
while busy, resets, power losses), the machine and the reference FSM, which takes its results from the sequencer's registers, go
through the same states for as long as every latency is the reference one. That is asked of the command in flight at the start,
whose sequencer has then made no step (`CNT = 0`), and of every command accepted on the way; which latency is drawn is open. -/
def Obligations.ReferenceFsmRefinesStep : Prop :=
  ∀ (s : State) (n : Nat),
    (s.fsm = .exec → s.cnt = 0 ∧ s.latencyIsReference) →
    (∀ (j : Nat) (u t : State), j < n → Sys2Proof.core.run j s = .next u → u.atAcceptance → step u = .next t →
      t.latencyIsReference) →
    Sys2Proof.core.run n s = refRun n s
end

