-- ==== Sys2Proof/Laws/Bytes.lean ====
section
/-! SUPPORT. Byte order: a value is its sixteen bytes, and building a value from bytes or matrix elements gives them back. -/

namespace Sys2Proof.Machine

/-- Bit `i` of byte `k` is bit `i + 120 - 8k` of the value. -/
theorem getLsbD_byteAt (v : Block) (k i : Nat) : (byteAt v k).getLsbD i = (decide (i < 8) && v.getLsbD (120 - 8 * k + i)) := by
  simp [byteAt, BitVec.getLsbD_extractLsb']

/-- A byte above the last one of a concatenation is a byte of what stands before it. -/
theorem extract_append_high {n : Nat} (x : BitVec n) (y : Byte) (j : Nat) (hj : 8 ≤ j) :
    (x ++ y).extractLsb' j 8 = x.extractLsb' (j - 8) 8 := by
  apply BitVec.eq_of_getLsbD_eq
  intro i hi
  have h : ¬ j + i < 8 := by omega
  simp only [BitVec.getLsbD_extractLsb', BitVec.getLsbD_append, hi, h, decide_true, Bool.true_and, if_false]
  congr 1
  omega

/-- The last byte of a concatenation. -/
theorem extract_append_low {n : Nat} (x : BitVec n) (y : Byte) : (x ++ y).extractLsb' 0 8 = y := by
  apply BitVec.eq_of_getLsbD_eq
  intro i hi
  simp [BitVec.getLsbD_append, hi]

/-- A value built from bytes gives them back. -/
@[simp] theorem byteAt_ofBytes (f : Nat → Byte) (k : Nat) (hk : k < 16) : byteAt (ofBytes f) k = f k := by
  unfold byteAt ofBytes
  interval_cases k <;>
    simp only [Nat.reduceMul, Nat.reduceSub, Nat.reduceLeDiff, extract_append_high, extract_append_low,
      BitVec.extractLsb'_eq_self]

/-- Two values with the same sixteen bytes are equal. -/
theorem block_ext {u v : Block} (h : ∀ k, k < 16 → byteAt u k = byteAt v k) : u = v := by
  apply BitVec.eq_of_getLsbD_eq
  intro i hi
  have hb := congrArg (fun b : Byte => b.getLsbD (i % 8)) (h (15 - i / 8) (by omega))
  simp only [getLsbD_byteAt] at hb
  have hlt : i % 8 < 8 := Nat.mod_lt _ (by decide)
  have hidx : 120 - 8 * (15 - i / 8) + i % 8 = i := by omega
  simpa [hlt, hidx] using hb

/-- The bytes of a value rebuild it. -/
theorem ofBytes_byteAt (v : Block) : ofBytes (byteAt v) = v :=
  block_ext fun k hk => byteAt_ofBytes (byteAt v) k hk

/-- A value built from matrix elements gives them back. -/
theorem elemAt_ofMatrix (f : Nat → Nat → Byte) (r c : Nat) (hr : r < 4) (hc : c < 4) : elemAt (ofMatrix f) r c = f r c := by
  have hk : r + 4 * c < 16 := by omega
  have h1 : (r + 4 * c) % 4 = r := by omega
  have h2 : (r + 4 * c) / 4 = c := by omega
  simp [elemAt, ofMatrix, hk, h1, h2]

/-- Two values with the same sixteen matrix elements are equal. -/
theorem block_ext_elem {u v : Block} (h : ∀ r c, r < 4 → c < 4 → elemAt u r c = elemAt v r c) : u = v := by
  apply block_ext
  intro k hk
  have he := h (k % 4) (k / 4) (by omega) (by omega)
  have hidx : k % 4 + 4 * (k / 4) = k := by omega
  simpa [elemAt, hidx] using he

end Sys2Proof.Machine
end

