-- ==== Sys2Proof/Laws/Galois.lean ====
section
/-! SUPPORT. The two halves of the field product are linear over XOR, from which its laws follow. -/

namespace Sys2Proof.Machine

/-- A term added to both sides cancels. -/
theorem xor_shared {n : Nat} (p q k : BitVec n) : (p ^^^ k) ^^^ (q ^^^ k) = p ^^^ q := by
  apply BitVec.eq_of_getLsbD_eq
  intro i _
  simp only [BitVec.getLsbD_xor]
  cases p.getLsbD i <;> cases q.getLsbD i <;> cases k.getLsbD i <;> rfl

/-- A loop of conditional additions of fixed terms, the conditions read from the accumulator, is linear. -/
theorem foldl_reduce_xor (term : Nat → BitVec 16) (is : List Nat) (p q : BitVec 16) :
    is.foldl (fun p i => if p.getLsbD i then p ^^^ term i else p) (p ^^^ q) =
      is.foldl (fun p i => if p.getLsbD i then p ^^^ term i else p) p ^^^
        is.foldl (fun p i => if p.getLsbD i then p ^^^ term i else p) q := by
  induction is generalizing p q with
  | nil => rfl
  | cons i is ih =>
    simp only [List.foldl_cons]
    rw [← ih]
    congr 1
    rw [BitVec.getLsbD_xor]
    cases p.getLsbD i <;> cases q.getLsbD i <;> simp [xor_shared] <;> ac_rfl

/-- The reduction modulo 0x11B is linear. -/
theorem reduceProduct_xor (p q : BitVec 16) : reduceProduct (p ^^^ q) = reduceProduct p ^^^ reduceProduct q :=
  foldl_reduce_xor _ _ p q

/-- A loop of conditional additions is linear in the byte its conditions are read from. -/
theorem foldl_product_xor (term : Nat → BitVec 16) (is : List Nat) (b c : Byte) (p q : BitVec 16) :
    is.foldl (fun p i => if (b ^^^ c).getLsbD i then p ^^^ term i else p) (p ^^^ q) =
      is.foldl (fun p i => if b.getLsbD i then p ^^^ term i else p) p ^^^
        is.foldl (fun p i => if c.getLsbD i then p ^^^ term i else p) q := by
  induction is generalizing p q with
  | nil => rfl
  | cons i is ih =>
    simp only [List.foldl_cons]
    rw [← ih]
    congr 1
    rw [BitVec.getLsbD_xor]
    cases b.getLsbD i <;> cases c.getLsbD i <;> simp [xor_shared] <;> ac_rfl

/-- The carry-less product is linear in its second operand. -/
theorem carrylessProduct_xor (a b c : Byte) :
    carrylessProduct a (b ^^^ c) = carrylessProduct a b ^^^ carrylessProduct a c := by
  have h := foldl_product_xor (fun i => a.setWidth 16 <<< i) (List.range 8) b c 0 0
  simpa [carrylessProduct] using h

end Sys2Proof.Machine
end

