-- ==== Sys2Proof/Laws/State.lean ====
section
/-! SUPPORT. One lemma per field and update of the state: what each named write leaves in each register. -/

namespace Sys2Proof.Machine

variable (s : State)

/-! ### writeY -/

@[simp] theorem State.writeY_state (v : Byte) : (s.writeY v).state = s.state := rfl
@[simp] theorem State.writeY_dout (v : Byte) : (s.writeY v).dout = s.dout := rfl
@[simp] theorem State.writeY_y (v : Byte) : (s.writeY v).y = v := rfl
@[simp] theorem State.writeY_rkt (v : Byte) : (s.writeY v).rkt = s.rkt := rfl
@[simp] theorem State.writeY_keyValid (v : Byte) : (s.writeY v).keyValid = s.keyValid := rfl
@[simp] theorem State.writeY_err (v : Byte) : (s.writeY v).err = s.err := rfl
@[simp] theorem State.writeY_busy (v : Byte) : (s.writeY v).busy = s.busy := rfl
@[simp] theorem State.writeY_done (v : Byte) : (s.writeY v).done = s.done := rfl
@[simp] theorem State.writeY_fsm (v : Byte) : (s.writeY v).fsm = s.fsm := rfl
@[simp] theorem State.writeY_cmdr (v : Byte) : (s.writeY v).cmdr = s.cmdr := rfl
@[simp] theorem State.writeY_dinr (v : Byte) : (s.writeY v).dinr = s.dinr := rfl
@[simp] theorem State.writeY_keyr (v : Byte) : (s.writeY v).keyr = s.keyr := rfl
@[simp] theorem State.writeY_cnt (v : Byte) : (s.writeY v).cnt = s.cnt := rfl
@[simp] theorem State.writeY_rcnt (v : Byte) : (s.writeY v).rcnt = s.rcnt := rfl
@[simp] theorem State.writeY_work (v : Byte) : (s.writeY v).work = s.work := rfl
@[simp] theorem State.writeY_wkey (v : Byte) : (s.writeY v).wkey = s.wkey := rfl
@[simp] theorem State.writeY_shadow (v : Byte) : (s.writeY v).shadow = s.shadow := rfl
@[simp] theorem State.writeY_gacc (v : Byte) : (s.writeY v).gacc = s.gacc := rfl
@[simp] theorem State.writeY_ga (v : Byte) : (s.writeY v).ga = s.ga := rfl
@[simp] theorem State.writeY_gb (v : Byte) : (s.writeY v).gb = s.gb := rfl
@[simp] theorem State.writeY_gstep (v : Byte) : (s.writeY v).gstep = s.gstep := rfl
@[simp] theorem State.writeY_initialised (v : Byte) : (s.writeY v).initialised = s.initialised := rfl
@[simp] theorem State.writeY_edgesLeft (v : Byte) : (s.writeY v).edgesLeft = s.edgesLeft := rfl
@[simp] theorem State.writeY_draws (v : Byte) : (s.writeY v).draws = s.draws := rfl
@[simp] theorem State.writeY_host (v : Byte) : (s.writeY v).host = s.host := rfl

/-! ### writeDout -/

@[simp] theorem State.writeDout_state (v : Block) : (s.writeDout v).state = s.state := rfl
@[simp] theorem State.writeDout_dout (v : Block) : (s.writeDout v).dout = v := rfl
@[simp] theorem State.writeDout_y (v : Block) : (s.writeDout v).y = s.y := rfl
@[simp] theorem State.writeDout_rkt (v : Block) : (s.writeDout v).rkt = s.rkt := rfl
@[simp] theorem State.writeDout_keyValid (v : Block) : (s.writeDout v).keyValid = s.keyValid := rfl
@[simp] theorem State.writeDout_err (v : Block) : (s.writeDout v).err = s.err := rfl
@[simp] theorem State.writeDout_busy (v : Block) : (s.writeDout v).busy = s.busy := rfl
@[simp] theorem State.writeDout_done (v : Block) : (s.writeDout v).done = s.done := rfl
@[simp] theorem State.writeDout_fsm (v : Block) : (s.writeDout v).fsm = s.fsm := rfl
@[simp] theorem State.writeDout_cmdr (v : Block) : (s.writeDout v).cmdr = s.cmdr := rfl
@[simp] theorem State.writeDout_dinr (v : Block) : (s.writeDout v).dinr = s.dinr := rfl
@[simp] theorem State.writeDout_keyr (v : Block) : (s.writeDout v).keyr = s.keyr := rfl
@[simp] theorem State.writeDout_cnt (v : Block) : (s.writeDout v).cnt = s.cnt := rfl
@[simp] theorem State.writeDout_rcnt (v : Block) : (s.writeDout v).rcnt = s.rcnt := rfl
@[simp] theorem State.writeDout_work (v : Block) : (s.writeDout v).work = s.work := rfl
@[simp] theorem State.writeDout_wkey (v : Block) : (s.writeDout v).wkey = s.wkey := rfl
@[simp] theorem State.writeDout_shadow (v : Block) : (s.writeDout v).shadow = s.shadow := rfl
@[simp] theorem State.writeDout_gacc (v : Block) : (s.writeDout v).gacc = s.gacc := rfl
@[simp] theorem State.writeDout_ga (v : Block) : (s.writeDout v).ga = s.ga := rfl
@[simp] theorem State.writeDout_gb (v : Block) : (s.writeDout v).gb = s.gb := rfl
@[simp] theorem State.writeDout_gstep (v : Block) : (s.writeDout v).gstep = s.gstep := rfl
@[simp] theorem State.writeDout_initialised (v : Block) : (s.writeDout v).initialised = s.initialised := rfl
@[simp] theorem State.writeDout_edgesLeft (v : Block) : (s.writeDout v).edgesLeft = s.edgesLeft := rfl
@[simp] theorem State.writeDout_draws (v : Block) : (s.writeDout v).draws = s.draws := rfl
@[simp] theorem State.writeDout_host (v : Block) : (s.writeDout v).host = s.host := rfl

/-! ### writeState -/

@[simp] theorem State.writeState_state (v : Block) : (s.writeState v).state = v := rfl
@[simp] theorem State.writeState_dout (v : Block) : (s.writeState v).dout = v := rfl
@[simp] theorem State.writeState_y (v : Block) : (s.writeState v).y = s.y := rfl
@[simp] theorem State.writeState_rkt (v : Block) : (s.writeState v).rkt = s.rkt := rfl
@[simp] theorem State.writeState_keyValid (v : Block) : (s.writeState v).keyValid = s.keyValid := rfl
@[simp] theorem State.writeState_err (v : Block) : (s.writeState v).err = s.err := rfl
@[simp] theorem State.writeState_busy (v : Block) : (s.writeState v).busy = s.busy := rfl
@[simp] theorem State.writeState_done (v : Block) : (s.writeState v).done = s.done := rfl
@[simp] theorem State.writeState_fsm (v : Block) : (s.writeState v).fsm = s.fsm := rfl
@[simp] theorem State.writeState_cmdr (v : Block) : (s.writeState v).cmdr = s.cmdr := rfl
@[simp] theorem State.writeState_dinr (v : Block) : (s.writeState v).dinr = s.dinr := rfl
@[simp] theorem State.writeState_keyr (v : Block) : (s.writeState v).keyr = s.keyr := rfl
@[simp] theorem State.writeState_cnt (v : Block) : (s.writeState v).cnt = s.cnt := rfl
@[simp] theorem State.writeState_rcnt (v : Block) : (s.writeState v).rcnt = s.rcnt := rfl
@[simp] theorem State.writeState_work (v : Block) : (s.writeState v).work = s.work := rfl
@[simp] theorem State.writeState_wkey (v : Block) : (s.writeState v).wkey = s.wkey := rfl
@[simp] theorem State.writeState_shadow (v : Block) : (s.writeState v).shadow = s.shadow := rfl
@[simp] theorem State.writeState_gacc (v : Block) : (s.writeState v).gacc = s.gacc := rfl
@[simp] theorem State.writeState_ga (v : Block) : (s.writeState v).ga = s.ga := rfl
@[simp] theorem State.writeState_gb (v : Block) : (s.writeState v).gb = s.gb := rfl
@[simp] theorem State.writeState_gstep (v : Block) : (s.writeState v).gstep = s.gstep := rfl
@[simp] theorem State.writeState_initialised (v : Block) : (s.writeState v).initialised = s.initialised := rfl
@[simp] theorem State.writeState_edgesLeft (v : Block) : (s.writeState v).edgesLeft = s.edgesLeft := rfl
@[simp] theorem State.writeState_draws (v : Block) : (s.writeState v).draws = s.draws := rfl
@[simp] theorem State.writeState_host (v : Block) : (s.writeState v).host = s.host := rfl

/-! ### loadTable -/

@[simp] theorem State.loadTable_state (t : Vector Block 11) : (s.loadTable t).state = s.state := rfl
@[simp] theorem State.loadTable_dout (t : Vector Block 11) : (s.loadTable t).dout = s.dout := rfl
@[simp] theorem State.loadTable_y (t : Vector Block 11) : (s.loadTable t).y = s.y := rfl
@[simp] theorem State.loadTable_rkt (t : Vector Block 11) : (s.loadTable t).rkt = t := rfl
@[simp] theorem State.loadTable_keyValid (t : Vector Block 11) : (s.loadTable t).keyValid = true := rfl
@[simp] theorem State.loadTable_err (t : Vector Block 11) : (s.loadTable t).err = s.err := rfl
@[simp] theorem State.loadTable_busy (t : Vector Block 11) : (s.loadTable t).busy = s.busy := rfl
@[simp] theorem State.loadTable_done (t : Vector Block 11) : (s.loadTable t).done = s.done := rfl
@[simp] theorem State.loadTable_fsm (t : Vector Block 11) : (s.loadTable t).fsm = s.fsm := rfl
@[simp] theorem State.loadTable_cmdr (t : Vector Block 11) : (s.loadTable t).cmdr = s.cmdr := rfl
@[simp] theorem State.loadTable_dinr (t : Vector Block 11) : (s.loadTable t).dinr = s.dinr := rfl
@[simp] theorem State.loadTable_keyr (t : Vector Block 11) : (s.loadTable t).keyr = s.keyr := rfl
@[simp] theorem State.loadTable_cnt (t : Vector Block 11) : (s.loadTable t).cnt = s.cnt := rfl
@[simp] theorem State.loadTable_rcnt (t : Vector Block 11) : (s.loadTable t).rcnt = s.rcnt := rfl
@[simp] theorem State.loadTable_work (t : Vector Block 11) : (s.loadTable t).work = s.work := rfl
@[simp] theorem State.loadTable_wkey (t : Vector Block 11) : (s.loadTable t).wkey = s.wkey := rfl
@[simp] theorem State.loadTable_shadow (t : Vector Block 11) : (s.loadTable t).shadow = s.shadow := rfl
@[simp] theorem State.loadTable_gacc (t : Vector Block 11) : (s.loadTable t).gacc = s.gacc := rfl
@[simp] theorem State.loadTable_ga (t : Vector Block 11) : (s.loadTable t).ga = s.ga := rfl
@[simp] theorem State.loadTable_gb (t : Vector Block 11) : (s.loadTable t).gb = s.gb := rfl
@[simp] theorem State.loadTable_gstep (t : Vector Block 11) : (s.loadTable t).gstep = s.gstep := rfl
@[simp] theorem State.loadTable_initialised (t : Vector Block 11) : (s.loadTable t).initialised = s.initialised := rfl
@[simp] theorem State.loadTable_edgesLeft (t : Vector Block 11) : (s.loadTable t).edgesLeft = s.edgesLeft := rfl
@[simp] theorem State.loadTable_draws (t : Vector Block 11) : (s.loadTable t).draws = s.draws := rfl
@[simp] theorem State.loadTable_host (t : Vector Block 11) : (s.loadTable t).host = s.host := rfl

/-! ### endWith -/

@[simp] theorem State.endWith_state (e : BitVec 3) : (s.endWith e).state = s.state := rfl
@[simp] theorem State.endWith_dout (e : BitVec 3) : (s.endWith e).dout = s.dout := rfl
@[simp] theorem State.endWith_y (e : BitVec 3) : (s.endWith e).y = s.y := rfl
@[simp] theorem State.endWith_rkt (e : BitVec 3) : (s.endWith e).rkt = s.rkt := rfl
@[simp] theorem State.endWith_keyValid (e : BitVec 3) : (s.endWith e).keyValid = s.keyValid := rfl
@[simp] theorem State.endWith_err (e : BitVec 3) : (s.endWith e).err = e := rfl
@[simp] theorem State.endWith_busy (e : BitVec 3) : (s.endWith e).busy = false := rfl
@[simp] theorem State.endWith_done (e : BitVec 3) : (s.endWith e).done = true := rfl
@[simp] theorem State.endWith_fsm (e : BitVec 3) : (s.endWith e).fsm = .idle := rfl
@[simp] theorem State.endWith_cmdr (e : BitVec 3) : (s.endWith e).cmdr = s.cmdr := rfl
@[simp] theorem State.endWith_dinr (e : BitVec 3) : (s.endWith e).dinr = s.dinr := rfl
@[simp] theorem State.endWith_keyr (e : BitVec 3) : (s.endWith e).keyr = s.keyr := rfl
@[simp] theorem State.endWith_cnt (e : BitVec 3) : (s.endWith e).cnt = s.cnt := rfl
@[simp] theorem State.endWith_rcnt (e : BitVec 3) : (s.endWith e).rcnt = s.rcnt := rfl
@[simp] theorem State.endWith_work (e : BitVec 3) : (s.endWith e).work = s.work := rfl
@[simp] theorem State.endWith_wkey (e : BitVec 3) : (s.endWith e).wkey = s.wkey := rfl
@[simp] theorem State.endWith_shadow (e : BitVec 3) : (s.endWith e).shadow = s.shadow := rfl
@[simp] theorem State.endWith_gacc (e : BitVec 3) : (s.endWith e).gacc = s.gacc := rfl
@[simp] theorem State.endWith_ga (e : BitVec 3) : (s.endWith e).ga = s.ga := rfl
@[simp] theorem State.endWith_gb (e : BitVec 3) : (s.endWith e).gb = s.gb := rfl
@[simp] theorem State.endWith_gstep (e : BitVec 3) : (s.endWith e).gstep = s.gstep := rfl
@[simp] theorem State.endWith_initialised (e : BitVec 3) : (s.endWith e).initialised = s.initialised := rfl
@[simp] theorem State.endWith_edgesLeft (e : BitVec 3) : (s.endWith e).edgesLeft = s.edgesLeft := rfl
@[simp] theorem State.endWith_draws (e : BitVec 3) : (s.endWith e).draws = s.draws := rfl
@[simp] theorem State.endWith_host (e : BitVec 3) : (s.endWith e).host = s.host := rfl

/-! ### accept -/

@[simp] theorem State.accept_state (p : Ports) : (s.accept p).state = s.state := rfl
@[simp] theorem State.accept_dout (p : Ports) : (s.accept p).dout = s.dout := rfl
@[simp] theorem State.accept_y (p : Ports) : (s.accept p).y = s.y := rfl
@[simp] theorem State.accept_rkt (p : Ports) : (s.accept p).rkt = s.rkt := rfl
@[simp] theorem State.accept_keyValid (p : Ports) : (s.accept p).keyValid = s.keyValid := rfl
@[simp] theorem State.accept_err (p : Ports) : (s.accept p).err = s.err := rfl
@[simp] theorem State.accept_busy (p : Ports) : (s.accept p).busy = true := rfl
@[simp] theorem State.accept_done (p : Ports) : (s.accept p).done = false := rfl
@[simp] theorem State.accept_fsm (p : Ports) : (s.accept p).fsm = .exec := rfl
@[simp] theorem State.accept_cmdr (p : Ports) : (s.accept p).cmdr = p.cmd := rfl
@[simp] theorem State.accept_dinr (p : Ports) : (s.accept p).dinr = p.din := rfl
@[simp] theorem State.accept_keyr (p : Ports) : (s.accept p).keyr = p.keyIn := rfl
@[simp] theorem State.accept_cnt (p : Ports) : (s.accept p).cnt = 0 := rfl
@[simp] theorem State.accept_rcnt (p : Ports) : (s.accept p).rcnt = s.rcnt := rfl
@[simp] theorem State.accept_work (p : Ports) : (s.accept p).work = s.work := rfl
@[simp] theorem State.accept_wkey (p : Ports) : (s.accept p).wkey = s.wkey := rfl
@[simp] theorem State.accept_shadow (p : Ports) : (s.accept p).shadow = s.shadow := rfl
@[simp] theorem State.accept_gacc (p : Ports) : (s.accept p).gacc = s.gacc := rfl
@[simp] theorem State.accept_ga (p : Ports) : (s.accept p).ga = s.ga := rfl
@[simp] theorem State.accept_gb (p : Ports) : (s.accept p).gb = s.gb := rfl
@[simp] theorem State.accept_gstep (p : Ports) : (s.accept p).gstep = s.gstep := rfl
@[simp] theorem State.accept_initialised (p : Ports) : (s.accept p).initialised = s.initialised := rfl
@[simp] theorem State.accept_edgesLeft (p : Ports) : (s.accept p).edgesLeft = Config.extraEdges s.draws p.cmd p.din p.keyIn := rfl
@[simp] theorem State.accept_draws (p : Ports) : (s.accept p).draws = s.draws + 1 := rfl
@[simp] theorem State.accept_host (p : Ports) : (s.accept p).host = s.host := rfl

/-! ### idleEdge -/

@[simp] theorem State.idleEdge_state : (s.idleEdge).state = s.state := rfl
@[simp] theorem State.idleEdge_dout : (s.idleEdge).dout = s.dout := rfl
@[simp] theorem State.idleEdge_y : (s.idleEdge).y = s.y := rfl
@[simp] theorem State.idleEdge_rkt : (s.idleEdge).rkt = s.rkt := rfl
@[simp] theorem State.idleEdge_keyValid : (s.idleEdge).keyValid = s.keyValid := rfl
@[simp] theorem State.idleEdge_err : (s.idleEdge).err = s.err := rfl
@[simp] theorem State.idleEdge_busy : (s.idleEdge).busy = s.busy := rfl
@[simp] theorem State.idleEdge_done : (s.idleEdge).done = false := rfl
@[simp] theorem State.idleEdge_fsm : (s.idleEdge).fsm = s.fsm := rfl
@[simp] theorem State.idleEdge_cmdr : (s.idleEdge).cmdr = s.cmdr := rfl
@[simp] theorem State.idleEdge_dinr : (s.idleEdge).dinr = s.dinr := rfl
@[simp] theorem State.idleEdge_keyr : (s.idleEdge).keyr = s.keyr := rfl
@[simp] theorem State.idleEdge_cnt : (s.idleEdge).cnt = s.cnt := rfl
@[simp] theorem State.idleEdge_rcnt : (s.idleEdge).rcnt = s.rcnt := rfl
@[simp] theorem State.idleEdge_work : (s.idleEdge).work = s.work := rfl
@[simp] theorem State.idleEdge_wkey : (s.idleEdge).wkey = s.wkey := rfl
@[simp] theorem State.idleEdge_shadow : (s.idleEdge).shadow = s.shadow := rfl
@[simp] theorem State.idleEdge_gacc : (s.idleEdge).gacc = s.gacc := rfl
@[simp] theorem State.idleEdge_ga : (s.idleEdge).ga = s.ga := rfl
@[simp] theorem State.idleEdge_gb : (s.idleEdge).gb = s.gb := rfl
@[simp] theorem State.idleEdge_gstep : (s.idleEdge).gstep = s.gstep := rfl
@[simp] theorem State.idleEdge_initialised : (s.idleEdge).initialised = s.initialised := rfl
@[simp] theorem State.idleEdge_edgesLeft : (s.idleEdge).edgesLeft = s.edgesLeft := rfl
@[simp] theorem State.idleEdge_draws : (s.idleEdge).draws = s.draws := rfl
@[simp] theorem State.idleEdge_host : (s.idleEdge).host = s.host := rfl

/-! ### waitEdge -/

@[simp] theorem State.waitEdge_state : (s.waitEdge).state = s.state := rfl
@[simp] theorem State.waitEdge_dout : (s.waitEdge).dout = s.dout := rfl
@[simp] theorem State.waitEdge_y : (s.waitEdge).y = s.y := rfl
@[simp] theorem State.waitEdge_rkt : (s.waitEdge).rkt = s.rkt := rfl
@[simp] theorem State.waitEdge_keyValid : (s.waitEdge).keyValid = s.keyValid := rfl
@[simp] theorem State.waitEdge_err : (s.waitEdge).err = s.err := rfl
@[simp] theorem State.waitEdge_busy : (s.waitEdge).busy = s.busy := rfl
@[simp] theorem State.waitEdge_done : (s.waitEdge).done = false := rfl
@[simp] theorem State.waitEdge_fsm : (s.waitEdge).fsm = s.fsm := rfl
@[simp] theorem State.waitEdge_cmdr : (s.waitEdge).cmdr = s.cmdr := rfl
@[simp] theorem State.waitEdge_dinr : (s.waitEdge).dinr = s.dinr := rfl
@[simp] theorem State.waitEdge_keyr : (s.waitEdge).keyr = s.keyr := rfl
@[simp] theorem State.waitEdge_cnt : (s.waitEdge).cnt = s.cnt + 1 := rfl
@[simp] theorem State.waitEdge_rcnt : (s.waitEdge).rcnt = s.rcnt := rfl
@[simp] theorem State.waitEdge_work : (s.waitEdge).work = s.work := rfl
@[simp] theorem State.waitEdge_wkey : (s.waitEdge).wkey = s.wkey := rfl
@[simp] theorem State.waitEdge_shadow : (s.waitEdge).shadow = s.shadow := rfl
@[simp] theorem State.waitEdge_gacc : (s.waitEdge).gacc = s.gacc := rfl
@[simp] theorem State.waitEdge_ga : (s.waitEdge).ga = s.ga := rfl
@[simp] theorem State.waitEdge_gb : (s.waitEdge).gb = s.gb := rfl
@[simp] theorem State.waitEdge_gstep : (s.waitEdge).gstep = s.gstep := rfl
@[simp] theorem State.waitEdge_initialised : (s.waitEdge).initialised = s.initialised := rfl
@[simp] theorem State.waitEdge_edgesLeft : (s.waitEdge).edgesLeft = s.edgesLeft - 1 := rfl
@[simp] theorem State.waitEdge_draws : (s.waitEdge).draws = s.draws := rfl
@[simp] theorem State.waitEdge_host : (s.waitEdge).host = s.host := rfl

/-! ### losePower -/

@[simp] theorem State.losePower_state : (s.losePower).state = s.state := rfl
@[simp] theorem State.losePower_dout : (s.losePower).dout = s.dout := rfl
@[simp] theorem State.losePower_y : (s.losePower).y = s.y := rfl
@[simp] theorem State.losePower_rkt : (s.losePower).rkt = s.rkt := rfl
@[simp] theorem State.losePower_keyValid : (s.losePower).keyValid = s.keyValid := rfl
@[simp] theorem State.losePower_err : (s.losePower).err = s.err := rfl
@[simp] theorem State.losePower_busy : (s.losePower).busy = s.busy := rfl
@[simp] theorem State.losePower_done : (s.losePower).done = s.done := rfl
@[simp] theorem State.losePower_fsm : (s.losePower).fsm = s.fsm := rfl
@[simp] theorem State.losePower_cmdr : (s.losePower).cmdr = s.cmdr := rfl
@[simp] theorem State.losePower_dinr : (s.losePower).dinr = s.dinr := rfl
@[simp] theorem State.losePower_keyr : (s.losePower).keyr = s.keyr := rfl
@[simp] theorem State.losePower_cnt : (s.losePower).cnt = s.cnt := rfl
@[simp] theorem State.losePower_rcnt : (s.losePower).rcnt = s.rcnt := rfl
@[simp] theorem State.losePower_work : (s.losePower).work = s.work := rfl
@[simp] theorem State.losePower_wkey : (s.losePower).wkey = s.wkey := rfl
@[simp] theorem State.losePower_shadow : (s.losePower).shadow = s.shadow := rfl
@[simp] theorem State.losePower_gacc : (s.losePower).gacc = s.gacc := rfl
@[simp] theorem State.losePower_ga : (s.losePower).ga = s.ga := rfl
@[simp] theorem State.losePower_gb : (s.losePower).gb = s.gb := rfl
@[simp] theorem State.losePower_gstep : (s.losePower).gstep = s.gstep := rfl
@[simp] theorem State.losePower_initialised : (s.losePower).initialised = false := rfl
@[simp] theorem State.losePower_edgesLeft : (s.losePower).edgesLeft = s.edgesLeft := rfl
@[simp] theorem State.losePower_draws : (s.losePower).draws = s.draws := rfl
@[simp] theorem State.losePower_host : (s.losePower).host = s.host := rfl

/-! ### mulStart -/

@[simp] theorem State.mulStart_state (a b : Byte) : (s.mulStart a b).state = s.state := rfl
@[simp] theorem State.mulStart_dout (a b : Byte) : (s.mulStart a b).dout = s.dout := rfl
@[simp] theorem State.mulStart_y (a b : Byte) : (s.mulStart a b).y = s.y := rfl
@[simp] theorem State.mulStart_rkt (a b : Byte) : (s.mulStart a b).rkt = s.rkt := rfl
@[simp] theorem State.mulStart_keyValid (a b : Byte) : (s.mulStart a b).keyValid = s.keyValid := rfl
@[simp] theorem State.mulStart_err (a b : Byte) : (s.mulStart a b).err = s.err := rfl
@[simp] theorem State.mulStart_busy (a b : Byte) : (s.mulStart a b).busy = s.busy := rfl
@[simp] theorem State.mulStart_done (a b : Byte) : (s.mulStart a b).done = s.done := rfl
@[simp] theorem State.mulStart_fsm (a b : Byte) : (s.mulStart a b).fsm = s.fsm := rfl
@[simp] theorem State.mulStart_cmdr (a b : Byte) : (s.mulStart a b).cmdr = s.cmdr := rfl
@[simp] theorem State.mulStart_dinr (a b : Byte) : (s.mulStart a b).dinr = s.dinr := rfl
@[simp] theorem State.mulStart_keyr (a b : Byte) : (s.mulStart a b).keyr = s.keyr := rfl
@[simp] theorem State.mulStart_cnt (a b : Byte) : (s.mulStart a b).cnt = s.cnt := rfl
@[simp] theorem State.mulStart_rcnt (a b : Byte) : (s.mulStart a b).rcnt = s.rcnt := rfl
@[simp] theorem State.mulStart_work (a b : Byte) : (s.mulStart a b).work = s.work := rfl
@[simp] theorem State.mulStart_wkey (a b : Byte) : (s.mulStart a b).wkey = s.wkey := rfl
@[simp] theorem State.mulStart_shadow (a b : Byte) : (s.mulStart a b).shadow = s.shadow := rfl
@[simp] theorem State.mulStart_gacc (a b : Byte) : (s.mulStart a b).gacc = 0 := rfl
@[simp] theorem State.mulStart_ga (a b : Byte) : (s.mulStart a b).ga = a := rfl
@[simp] theorem State.mulStart_gb (a b : Byte) : (s.mulStart a b).gb = b := rfl
@[simp] theorem State.mulStart_gstep (a b : Byte) : (s.mulStart a b).gstep = 7 := rfl
@[simp] theorem State.mulStart_initialised (a b : Byte) : (s.mulStart a b).initialised = s.initialised := rfl
@[simp] theorem State.mulStart_edgesLeft (a b : Byte) : (s.mulStart a b).edgesLeft = s.edgesLeft := rfl
@[simp] theorem State.mulStart_draws (a b : Byte) : (s.mulStart a b).draws = s.draws := rfl
@[simp] theorem State.mulStart_host (a b : Byte) : (s.mulStart a b).host = s.host := rfl

/-! ### mulCycle -/

@[simp] theorem State.mulCycle_state : (s.mulCycle).state = s.state := rfl
@[simp] theorem State.mulCycle_dout : (s.mulCycle).dout = s.dout := rfl
@[simp] theorem State.mulCycle_y : (s.mulCycle).y = s.y := rfl
@[simp] theorem State.mulCycle_rkt : (s.mulCycle).rkt = s.rkt := rfl
@[simp] theorem State.mulCycle_keyValid : (s.mulCycle).keyValid = s.keyValid := rfl
@[simp] theorem State.mulCycle_err : (s.mulCycle).err = s.err := rfl
@[simp] theorem State.mulCycle_busy : (s.mulCycle).busy = s.busy := rfl
@[simp] theorem State.mulCycle_done : (s.mulCycle).done = s.done := rfl
@[simp] theorem State.mulCycle_fsm : (s.mulCycle).fsm = s.fsm := rfl
@[simp] theorem State.mulCycle_cmdr : (s.mulCycle).cmdr = s.cmdr := rfl
@[simp] theorem State.mulCycle_dinr : (s.mulCycle).dinr = s.dinr := rfl
@[simp] theorem State.mulCycle_keyr : (s.mulCycle).keyr = s.keyr := rfl
@[simp] theorem State.mulCycle_cnt : (s.mulCycle).cnt = s.cnt := rfl
@[simp] theorem State.mulCycle_rcnt : (s.mulCycle).rcnt = s.rcnt := rfl
@[simp] theorem State.mulCycle_work : (s.mulCycle).work = s.work := rfl
@[simp] theorem State.mulCycle_wkey : (s.mulCycle).wkey = s.wkey := rfl
@[simp] theorem State.mulCycle_shadow : (s.mulCycle).shadow = s.shadow := rfl
@[simp] theorem State.mulCycle_gacc : (s.mulCycle).gacc = xtime s.gacc ^^^ (if s.gb.getLsbD s.gstep.toNat then s.ga else 0) := rfl
@[simp] theorem State.mulCycle_ga : (s.mulCycle).ga = s.ga := rfl
@[simp] theorem State.mulCycle_gb : (s.mulCycle).gb = s.gb := rfl
@[simp] theorem State.mulCycle_gstep : (s.mulCycle).gstep = if s.gstep = 0 then 0 else s.gstep - 1 := rfl
@[simp] theorem State.mulCycle_initialised : (s.mulCycle).initialised = s.initialised := rfl
@[simp] theorem State.mulCycle_edgesLeft : (s.mulCycle).edgesLeft = s.edgesLeft := rfl
@[simp] theorem State.mulCycle_draws : (s.mulCycle).draws = s.draws := rfl
@[simp] theorem State.mulCycle_host : (s.mulCycle).host = s.host := rfl

/-! ### keyCycle -/

@[simp] theorem State.keyCycle_state (v : Block) (k : Nat) : (s.keyCycle v k).state = s.state := rfl
@[simp] theorem State.keyCycle_dout (v : Block) (k : Nat) : (s.keyCycle v k).dout = s.dout := rfl
@[simp] theorem State.keyCycle_y (v : Block) (k : Nat) : (s.keyCycle v k).y = s.y := rfl
@[simp] theorem State.keyCycle_rkt (v : Block) (k : Nat) : (s.keyCycle v k).rkt = s.rkt := rfl
@[simp] theorem State.keyCycle_keyValid (v : Block) (k : Nat) : (s.keyCycle v k).keyValid = s.keyValid := rfl
@[simp] theorem State.keyCycle_err (v : Block) (k : Nat) : (s.keyCycle v k).err = s.err := rfl
@[simp] theorem State.keyCycle_busy (v : Block) (k : Nat) : (s.keyCycle v k).busy = s.busy := rfl
@[simp] theorem State.keyCycle_done (v : Block) (k : Nat) : (s.keyCycle v k).done = s.done := rfl
@[simp] theorem State.keyCycle_fsm (v : Block) (k : Nat) : (s.keyCycle v k).fsm = s.fsm := rfl
@[simp] theorem State.keyCycle_cmdr (v : Block) (k : Nat) : (s.keyCycle v k).cmdr = s.cmdr := rfl
@[simp] theorem State.keyCycle_dinr (v : Block) (k : Nat) : (s.keyCycle v k).dinr = s.dinr := rfl
@[simp] theorem State.keyCycle_keyr (v : Block) (k : Nat) : (s.keyCycle v k).keyr = s.keyr := rfl
@[simp] theorem State.keyCycle_cnt (v : Block) (k : Nat) : (s.keyCycle v k).cnt = s.cnt := rfl
@[simp] theorem State.keyCycle_rcnt (v : Block) (k : Nat) : (s.keyCycle v k).rcnt = BitVec.ofNat 4 (k + 1) := rfl
@[simp] theorem State.keyCycle_work (v : Block) (k : Nat) : (s.keyCycle v k).work = s.work := rfl
@[simp] theorem State.keyCycle_wkey (v : Block) (k : Nat) : (s.keyCycle v k).wkey = nextRoundKey v k := rfl
@[simp] theorem State.keyCycle_shadow (v : Block) (k : Nat) : (s.keyCycle v k).shadow = s.shadow.setIfInBounds (k - 1) (nextRoundKey v k) := rfl
@[simp] theorem State.keyCycle_gacc (v : Block) (k : Nat) : (s.keyCycle v k).gacc = s.gacc := rfl
@[simp] theorem State.keyCycle_ga (v : Block) (k : Nat) : (s.keyCycle v k).ga = s.ga := rfl
@[simp] theorem State.keyCycle_gb (v : Block) (k : Nat) : (s.keyCycle v k).gb = s.gb := rfl
@[simp] theorem State.keyCycle_gstep (v : Block) (k : Nat) : (s.keyCycle v k).gstep = s.gstep := rfl
@[simp] theorem State.keyCycle_initialised (v : Block) (k : Nat) : (s.keyCycle v k).initialised = s.initialised := rfl
@[simp] theorem State.keyCycle_edgesLeft (v : Block) (k : Nat) : (s.keyCycle v k).edgesLeft = s.edgesLeft := rfl
@[simp] theorem State.keyCycle_draws (v : Block) (k : Nat) : (s.keyCycle v k).draws = s.draws := rfl
@[simp] theorem State.keyCycle_host (v : Block) (k : Nat) : (s.keyCycle v k).host = s.host := rfl

/-! ### resetEdge -/

@[simp] theorem State.resetEdge_state : s.resetEdge.state = 0 := rfl
@[simp] theorem State.resetEdge_dout : s.resetEdge.dout = 0 := rfl
@[simp] theorem State.resetEdge_y : s.resetEdge.y = 0 := rfl
@[simp] theorem State.resetEdge_rkt : s.resetEdge.rkt = State.reset.rkt := rfl
@[simp] theorem State.resetEdge_keyValid : s.resetEdge.keyValid = false := rfl
@[simp] theorem State.resetEdge_err : s.resetEdge.err = 0 := rfl
@[simp] theorem State.resetEdge_busy : s.resetEdge.busy = false := rfl
@[simp] theorem State.resetEdge_done : s.resetEdge.done = false := rfl
@[simp] theorem State.resetEdge_fsm : s.resetEdge.fsm = .idle := rfl
@[simp] theorem State.resetEdge_cmdr : s.resetEdge.cmdr = 0 := rfl
@[simp] theorem State.resetEdge_dinr : s.resetEdge.dinr = 0 := rfl
@[simp] theorem State.resetEdge_keyr : s.resetEdge.keyr = 0 := rfl
@[simp] theorem State.resetEdge_cnt : s.resetEdge.cnt = 0 := rfl
@[simp] theorem State.resetEdge_rcnt : s.resetEdge.rcnt = 0 := rfl
@[simp] theorem State.resetEdge_work : s.resetEdge.work = 0 := rfl
@[simp] theorem State.resetEdge_wkey : s.resetEdge.wkey = 0 := rfl
@[simp] theorem State.resetEdge_shadow : s.resetEdge.shadow = State.reset.shadow := rfl
@[simp] theorem State.resetEdge_gacc : s.resetEdge.gacc = 0 := rfl
@[simp] theorem State.resetEdge_ga : s.resetEdge.ga = 0 := rfl
@[simp] theorem State.resetEdge_gb : s.resetEdge.gb = 0 := rfl
@[simp] theorem State.resetEdge_gstep : s.resetEdge.gstep = 0 := rfl
@[simp] theorem State.resetEdge_initialised : s.resetEdge.initialised = true := rfl
@[simp] theorem State.resetEdge_edgesLeft : s.resetEdge.edgesLeft = 0 := rfl
@[simp] theorem State.resetEdge_draws : s.resetEdge.draws = s.draws := rfl
@[simp] theorem State.resetEdge_host : s.resetEdge.host = s.host := rfl

end Sys2Proof.Machine
end

