-- ==== Sys2Proof/Laws/Ops.lean ====
section
/-! SUPPORT. What each shared operation can do, said once: the operands that may be absent, completion, the meanings, the
sequencer step, the edges, and the bytes of the table. -/

namespace Sys2Proof.Machine

/-! ### Operands (30 R85) -/

/-- The table operand is the table while a key is loaded, and `ERR_NOKEY` otherwise. -/
theorem tableOperand_cases (s : State) :
    (s.keyValid = true ∧ tableOperand s = .ok s.rkt) ∨ (s.keyValid = false ∧ tableOperand s = .error errNokey) := by
  cases h : s.keyValid <;> simp [tableOperand, h]

/-- The round-key operand: out of range, no key, or the entry. -/
theorem roundKeyOperand_cases (s : State) (rnd : BitVec 4) :
    (10 < rnd.toNat ∧ roundKeyOperand s rnd = .error errRnd) ∨
    (rnd.toNat ≤ 10 ∧ s.keyValid = false ∧ roundKeyOperand s rnd = .error errNokey) ∨
    (∃ h : rnd.toNat < 11, s.keyValid = true ∧ roundKeyOperand s rnd = .ok s.rkt[rnd.toNat]) := by
  by_cases h : rnd.toNat ≤ 10
  · cases hk : s.keyValid
    · exact .inr (.inl ⟨h, rfl, by simp [roundKeyOperand, h, hk]⟩)
    · exact .inr (.inr ⟨by omega, rfl, by simp [roundKeyOperand, h, hk]⟩)
  · exact .inl ⟨by omega, by simp [roundKeyOperand, h]⟩

/-! ### Completion (44 R205, 60 R235) -/

/-- A command with an operand that may be absent always completes: with its writes, or with the error alone. -/
theorem finish_cases {α : Type} (s : State) (operand : Except (BitVec 3) α) (writes : α → State → State) :
    (∃ e, operand = .error e ∧ finish s operand writes = .next (s.endWith e)) ∨
    (∃ v, operand = .ok v ∧ finish s operand writes = .next ((writes v s).endWith errNone)) := by
  cases operand with
  | error e => exact .inl ⟨e, rfl, rfl⟩
  | ok v => exact .inr ⟨v, rfl, rfl⟩

/-- The register writes of a command that does not end in error (the command rules of spec files 40 to 44). -/
def commandWrites (i : Instr) (s : State) : State :=
  match i with
  | .nop => s
  | .gfmul a b => s.writeY (gmul a b)
  | .gfinv a => s.writeY (ginv a)
  | .sbox a => s.writeY (sboxRom a)
  | .invsbox a => s.writeY (invSboxRom a)
  | .keyexp => s.loadTable (expand s.keyr)
  | .rkrd rnd => s.writeDout ((s.rkt[rnd.toNat]?).getD 0)
  | .enc => s.writeState (encryptBlock s.dinr s.rkt)
  | .dec => s.writeState (decryptBlock s.dinr s.rkt)
  | .ldst => s.writeState s.dinr
  | .subb => s.writeState (subBytes s.state)
  | .invsubb => s.writeState (invSubBytes s.state)
  | .shr => s.writeState (shiftRows s.state)
  | .invshr => s.writeState (invShiftRows s.state)
  | .mixc => s.writeState (mixColumns s.state)
  | .invmixc => s.writeState (invMixColumns s.state)
  | .ark rnd => s.writeState (addRoundKey s.state ((s.rkt[rnd.toNat]?).getD 0))

/-- Every meaning in one equation: the error alone, or the command's writes and `ERR_NONE`. -/
theorem exec_eq (i : Instr) (s : State) :
    exec i s = .next (match commandError i s with
      | some e => s.endWith e
      | none => (commandWrites i s).endWith errNone) := by
  cases i
  case rkrd rnd =>
    rcases roundKeyOperand_cases s rnd with ⟨_, h⟩ | ⟨_, _, h⟩ | ⟨hr, _, h⟩ <;>
      simp [exec, execRkrd, finish, succeed, commandError, operandError, commandWrites, h]
    simp [hr]
  case ark rnd =>
    rcases roundKeyOperand_cases s rnd with ⟨_, h⟩ | ⟨_, _, h⟩ | ⟨hr, _, h⟩ <;>
      simp [exec, execArk, finish, succeed, commandError, operandError, commandWrites, h]
    simp [hr]
  case enc =>
    rcases tableOperand_cases s with ⟨_, h⟩ | ⟨_, h⟩ <;>
      simp [exec, execEnc, finish, succeed, commandError, operandError, commandWrites, h]
  case dec =>
    rcases tableOperand_cases s with ⟨_, h⟩ | ⟨_, h⟩ <;>
      simp [exec, execDec, finish, succeed, commandError, operandError, commandWrites, h]
  all_goals rfl

/-- The register writes of the captured word's command; none for a word that is no command. -/
def wordWrites (s : State) : State :=
  match decode s.cmdr with
  | .error _ => s
  | .ok i => commandWrites i s

/-- Every captured word in one equation: the error alone, or its command's writes and `ERR_NONE`. -/
theorem completeWord_eq (s : State) :
    completeWord s = .next (match wordError s with
      | some e => s.endWith e
      | none => (wordWrites s).endWith errNone) := by
  unfold completeWord wordError wordWrites
  cases decode s.cmdr with
  | error e => rfl
  | ok i => exact exec_eq i s

/-- The error a command ends with is one of the last two codes, and only a command that reads the table ends with one. -/
theorem commandError_code {i : Instr} {s : State} {e : BitVec 3} (h : commandError i s = some e) :
    e = errRnd ∨ e = errNokey := by
  cases i <;> simp only [commandError, reduceCtorEq] at h
  case rkrd rnd =>
    rcases roundKeyOperand_cases s rnd with ⟨_, h'⟩ | ⟨_, _, h'⟩ | ⟨_, _, h'⟩ <;> simp [operandError, h'] at h <;> simp [h]
  case ark rnd =>
    rcases roundKeyOperand_cases s rnd with ⟨_, h'⟩ | ⟨_, _, h'⟩ | ⟨_, _, h'⟩ <;> simp [operandError, h'] at h <;> simp [h]
  case enc => rcases tableOperand_cases s with ⟨_, h'⟩ | ⟨_, h'⟩ <;> simp [operandError, h'] at h; simp [h]
  case dec => rcases tableOperand_cases s with ⟨_, h'⟩ | ⟨_, h'⟩ <;> simp [operandError, h'] at h; simp [h]

/-! ### The sequencer (44 R213, 10 R45) -/

/-- The hidden registers of `h`, everything else of `s`. -/
def State.withHiddenOf (s h : State) : State :=
  { s with
    rcnt := h.rcnt
    work := h.work
    wkey := h.wkey
    shadow := h.shadow
    gacc := h.gacc
    ga := h.ga
    gb := h.gb
    gstep := h.gstep }

/-- A sequencer step writes hidden registers only. -/
theorem seqStep_frame (i : Instr) (s : State) : seqStep i s = s.withHiddenOf (seqStep i s) := by
  cases i <;> simp only [seqStep]
  case gfmul a b => unfold mulStep; split <;> [skip; split] <;> rfl
  case gfinv a => unfold invStep; split <;> [skip; split] <;> rfl
  case keyexp => unfold keyStep; split <;> [skip; split] <;> rfl
  case enc => unfold encStep; split <;> [skip; split] <;> rfl
  case dec => unfold decStep; split <;> [skip; split] <;> rfl
  all_goals rfl

/-! ### Memory (20 R50, R51) -/

/-- A byte of the table is a byte of the entry it lies in. -/
theorem readByte_rkt (s : State) (r k : Nat) (hk : k < 16) :
    readByte s .rkt (16 * r + k) = (s.rkt[r]?).map fun v => byteAt v k := by
  have h1 : (16 * r + k) / 16 = r := by omega
  have h2 : (16 * r + k) % 16 = k := by omega
  simp [readByte, h1, h2]

/-- Reading after a whole-entry write: the entry written, or the byte as before. -/
theorem readByte_memWriteRkt (s : State) (r : Nat) (v : Block) (a : Nat) (hr : r < 11) :
    readByte (memWriteRkt s r v) .rkt a =
      if a / 16 = r then some (byteAt v (a % 16)) else readByte s .rkt a := by
  simp only [readByte, memWriteRkt, Vector.getElem?_setIfInBounds]
  by_cases h : a / 16 = r
  · subst h
    simp [hr]
  · simp [h, Ne.symm h]

end Sys2Proof.Machine
end

