-- ==== Sys2Proof/Laws/PerInstr.lean ====
section
/-! SUPPORT. A family of statements about every command as syntax: its word carries the opcode of its row and zero reserved
fields, so it matches its row of the opcode map (30 R84). -/

namespace Sys2Proof.Laws.EncodingShape

/-- The word of a command, under the mask 0x0000F0FF of 30 R84, is its row's match. -/
def Statement (i : Instr) : Prop := encode i &&& 0x0000F0FF = (i.opcode).setWidth 32

/-- A word of format `C` matches the row of its opcode, whatever its other fields are. -/
theorem formatC_matches (op : BitVec 5) (rnd : BitVec 4) (a b : Byte) :
    formatC op rnd a b &&& 0x0000F0FF = op.setWidth 32 := by
  apply BitVec.eq_of_getLsbD_eq
  intro i hi
  simp only [formatC, BitVec.getLsbD_and, BitVec.getLsbD_append, BitVec.getLsbD_setWidth]
  interval_cases i <;> simp

theorem nop : Statement .nop := formatC_matches _ _ _ _
theorem gfmul (a b : Byte) : Statement (.gfmul a b) := formatC_matches _ _ _ _
theorem gfinv (a : Byte) : Statement (.gfinv a) := formatC_matches _ _ _ _
theorem sbox (a : Byte) : Statement (.sbox a) := formatC_matches _ _ _ _
theorem invsbox (a : Byte) : Statement (.invsbox a) := formatC_matches _ _ _ _
theorem keyexp : Statement .keyexp := formatC_matches _ _ _ _
theorem rkrd (rnd : BitVec 4) : Statement (.rkrd rnd) := formatC_matches _ _ _ _
theorem enc : Statement .enc := formatC_matches _ _ _ _
theorem dec : Statement .dec := formatC_matches _ _ _ _
theorem ldst : Statement .ldst := formatC_matches _ _ _ _
theorem subb : Statement .subb := formatC_matches _ _ _ _
theorem invsubb : Statement .invsubb := formatC_matches _ _ _ _
theorem shr : Statement .shr := formatC_matches _ _ _ _
theorem invshr : Statement .invshr := formatC_matches _ _ _ _
theorem mixc : Statement .mixc := formatC_matches _ _ _ _
theorem invmixc : Statement .invmixc := formatC_matches _ _ _ _
theorem ark (rnd : BitVec 4) : Statement (.ark rnd) := formatC_matches _ _ _ _

end Sys2Proof.Laws.EncodingShape
end

