-- ==== Sys2Proof/Laws/Step.lean ====
section
/-! SUPPORT. What one edge and one step can do, said once. -/

namespace Sys2Proof.Machine

/-- One rising edge that answers a next state: reset, idle, acceptance, one more cycle, or completion. -/
theorem clockEdge_cases {p : Ports} {s t : State} (h : clockEdge p s = .next t) :
    (p.rst = true ∧ t = s.resetEdge) ∨
    (p.rst = false ∧ s.initialised = true ∧
      ((s.fsm = .idle ∧ p.cmdValid = false ∧ t = s.idleEdge) ∨
       (s.fsm = .idle ∧ p.cmdValid = true ∧ t = s.accept p) ∨
       (s.fsm = .exec ∧ completesNow s = false ∧ t = (sequencerEdge s).waitEdge) ∨
       (s.fsm = .exec ∧ completesNow s = true ∧ completeWord (sequencerEdge s) = .next t))) := by
  unfold clockEdge at h
  cases hr : p.rst <;> simp only [hr, Bool.false_eq_true, if_false, if_true] at h
  · cases hi : s.initialised <;> simp only [hi, Bool.false_eq_true, if_false, if_true] at h
    · cases h
    · refine .inr ⟨rfl, rfl, ?_⟩
      cases hf : s.fsm <;> simp only [hf] at h
      · cases hv : p.cmdValid <;> simp only [idleOrAccept, hv, Bool.false_eq_true, if_false, if_true] at h <;> cases h
        · exact .inl ⟨rfl, rfl, rfl⟩
        · exact .inr (.inl ⟨rfl, rfl, rfl⟩)
      · cases hc : completesNow s <;> simp only [execEdge, hc, Bool.false_eq_true, if_false, if_true] at h
        · cases h
          exact .inr (.inr (.inl ⟨rfl, rfl, rfl⟩))
        · exact .inr (.inr (.inr ⟨rfl, rfl, h⟩))
  · cases h
    exact .inl ⟨rfl, rfl⟩

/-- One step that answers a next state: an edge, with the ports the host's list gives, or a power loss. -/
theorem step_cases {s t : State} (h : step s = .next t) :
    (s.host = [] ∧ clockEdge Ports.quiet s = .next t) ∨
    (∃ p rest, s.host = .edge p :: rest ∧ clockEdge p { s with host := rest } = .next t) ∨
    (∃ rest, s.host = .powerLoss :: rest ∧ t = ({ s with host := rest } : State).losePower) := by
  unfold step hostStep at h
  split at h
  · next hs => exact .inl ⟨hs, h⟩
  · next p rest hs => exact .inr (.inl ⟨p, rest, hs, h⟩)
  · next rest hs =>
    cases h
    exact .inr (.inr ⟨rest, hs, rfl⟩)

/-- The captured word placed for the next step is completed by it, as its command's meaning says. -/
theorem step_placeCommand (s : State) (w : CmdWord) :
    step (s.placeCommand w) = completeWord (sequencerEdge { s.placeCommand w with host := s.host }) := by
  simp [step, hostStep, State.placeCommand, clockEdge, Ports.quiet, execEdge, completesNow]

end Sys2Proof.Machine
end

