-- ==== Sys2Proof/Tests/Slice0.lean ====
section
/-! SUPPORT. The model's own tests: expected values from the spec's encodings and from its file 95, one step each; and for every
statement with hypotheses a concrete case that meets them. -/

namespace Sys2Proof.Tests

open Sys2Proof Sys2Proof.Machine

/-! ### Helpers -/

/-- What a next state shows of something; nothing of a fault or a refusal. -/
def shown {α : Type} (o : Host.Outcome State Fault Refusal) (f : State → α) : Option α :=
  match o with
  | .next t => some (f t)
  | .fault _ => none
  | .refused _ => none

/-- Key K1 of 95, section 2.3. -/
def k1 : Block := 0x2b7e151628aed2a6abf7158809cf4f3c

/-- After reset, with the key loaded. -/
def keyed (key : Block) : State := { State.reset with rkt := expand key, keyValid := true }

/-- `s` with a word about to complete, and operands captured. -/
def placed (s : State) (w : CmdWord) (din keyIn : Block) : State :=
  { s with cmdr := w, dinr := din, keyr := keyIn, fsm := .exec, busy := true }

/-- `s` with `STATE` set. -/
def withState (s : State) (v : Block) : State := { s with state := v }

/-! ### Well-formedness (20 R51): the one check, and a term for each command it looks at -/

theorem test_illformed_rkrd : (Instr.rkrd 11).wellFormed = false := by decide
theorem test_illformed_ark : (Instr.ark 15).wellFormed = false := by decide
theorem test_wellformed_last_round_key : (Instr.rkrd 10).wellFormed = true ∧ (Instr.ark 10).wellFormed = true := by decide
theorem test_wellformed_field : (Instr.gfmul 0xFF 0x00).wellFormed = true ∧ Instr.enc.wellFormed = true := by decide

/-! ### Decoding: words written bit by bit from 30 R81 and R84, B, A, RSV1, RND, RSV0, OP -/

theorem test_decode_nop : decodeTableWord 32 0b00000000000000000000000000000000 = some .nop := by decide
theorem test_decode_gfmul : decodeTableWord 32 0b10000011010101110000000000000001 = some (.gfmul 0x57 0x83) := by decide
theorem test_decode_gfinv : decodeTableWord 32 0b00000000010100110000000000000010 = some (.gfinv 0x53) := by decide
theorem test_decode_sbox : decodeTableWord 32 0b00000000010100110000000000000011 = some (.sbox 0x53) := by decide
theorem test_decode_invsbox : decodeTableWord 32 0b00000000111011010000000000000100 = some (.invsbox 0xED) := by decide
theorem test_decode_keyexp : decodeTableWord 32 0b00000000000000000000000000000101 = some .keyexp := by decide
theorem test_decode_rkrd : decodeTableWord 32 0b00000000000000000000101000000110 = some (.rkrd 10) := by decide
theorem test_decode_enc_unused_fields : decodeTableWord 32 0b11111111111111110000101000000111 = some .enc := by decide
theorem test_decode_dec : decodeTableWord 32 0b00000000000000000000000000001000 = some .dec := by decide
theorem test_decode_ldst : decodeTableWord 32 0b00000000000000000000000000001001 = some .ldst := by decide
theorem test_decode_subb : decodeTableWord 32 0b00000000000000000000000000001010 = some .subb := by decide
theorem test_decode_invsubb : decodeTableWord 32 0b00000000000000000000000000001011 = some .invsubb := by decide
theorem test_decode_shr : decodeTableWord 32 0b00000000000000000000000000001100 = some .shr := by decide
theorem test_decode_invshr : decodeTableWord 32 0b00000000000000000000000000001101 = some .invshr := by decide
theorem test_decode_mixc_ignored_rnd : decodeTableWord 32 0b00000000000000000000101100001110 = some .mixc := by decide
theorem test_decode_invmixc : decodeTableWord 32 0b00000000000000000000000000001111 = some .invmixc := by decide
theorem test_decode_ark_out_of_range : decodeTableWord 32 0b00000000000000000000111100010000 = some (.ark 15) := by decide
theorem test_decode_short_row : decodeTableWord 16 0x00000010 = some (.ark 0) := by decide
theorem test_decode_illegal : decode 0x00000011 = .error .illegal ∧ decode 0x0000001F = .error .illegal := ⟨rfl, rfl⟩
theorem test_decode_illegal_over_reserved : decode 0x000000F1 = .error .illegal := rfl
theorem test_decode_reserved : decode 0x00000020 = .error .reserved ∧ decode 0x00001000 = .error .reserved := ⟨rfl, rfl⟩

/-! ### One completing step of each command (values of 95, sections 2.1 to 2.6) -/

theorem test_gfmul : shown (step (placed State.reset 0x83570001 0 0)) (·.y) = some 0xC1 := by decide +kernel
theorem test_gfmul_reserved_field :
    shown (step (placed State.reset 0x83570021 0 0)) (fun t => (t.y, statusWord t)) = some (0, 0x12) := by decide +kernel
theorem test_gfinv_unused_fields : shown (step (placed State.reset 0xFF530502 0 0)) (·.y) = some 0xCA := by decide +kernel
theorem test_gfinv_zero : shown (step (placed State.reset 0x00000002 0 0)) (·.y) = some 0x00 := by decide +kernel
theorem test_sbox : shown (step (placed State.reset 0x00530003 0 0)) (·.y) = some 0xED := by decide +kernel
theorem test_sbox_bit_order : shown (step (placed State.reset 0x00010003 0 0)) (·.y) = some 0x7C := by decide +kernel
theorem test_invsbox : shown (step (placed State.reset 0x00ED0004 0 0)) (·.y) = some 0x53 := by decide +kernel
theorem test_invsbox_last : shown (step (placed State.reset 0x00FF0004 0 0)) (·.y) = some 0x7D := by decide +kernel
theorem test_keyexp :
    shown (step (placed State.reset 0x00000005 0 k1)) (fun t => (t.rkt.get 10, statusWord t)) =
      some (0xd014f9a8c9ee2589e13f0cc8b6630ca6, 0x06) := by decide +kernel
theorem test_keyexp_all_ones :
    shown (step (placed State.reset 0x00000005 0 0xffffffffffffffffffffffffffffffff)) (fun t => t.rkt.get 7) =
      some 0xe90d208d2fbb89b6ed5018dd3c7dd150 := by decide +kernel
theorem test_rkrd :
    shown (step (placed (keyed k1) 0x00000106 0 0)) (fun t => (t.dout, t.state)) =
      some (0xa0fafe1788542cb123a339392a6c7605, 0) := by decide +kernel
theorem test_rkrd_range_before_key :
    shown (step (placed State.reset 0x00000F06 0 0)) (fun t => (t.dout, statusWord t)) = some (0, 0x1A) := by decide +kernel
theorem test_enc :
    shown (step (placed (keyed k1) 0x00000007 0x3243f6a8885a308d313198a2e0370734 0)) (fun t => (t.dout, t.state)) =
      some (0x3925841d02dc09fbdc118597196a0b32, 0x3925841d02dc09fbdc118597196a0b32) := by decide +kernel
theorem test_enc_no_key :
    shown (step (placed State.reset 0x00000007 5 0)) (fun t => (t.dout, statusWord t)) = some (0, 0x22) := by decide +kernel
theorem test_dec :
    shown (step (placed (keyed 0x000102030405060708090a0b0c0d0e0f) 0x00000008 0x69c4e0d86a7b0430d8cdb78070b4c55a 0))
      (·.dout) = some 0x00112233445566778899aabbccddeeff := by decide +kernel
theorem test_dec_tampered :
    shown (step (placed (keyed 0x74686973697361766572797365637265) 0x00000008 0x7f2d42ca3db1ab3d8d77dabdabdb6426 0))
      (·.dout) = some 0x258b4a3cde9eb76d48680ae4999299c4 := by decide +kernel
theorem test_ldst :
    shown (step (placed State.reset 0x00000009 0x3243f6a8885a308d313198a2e0370734 0)) (fun t => (t.state, t.dout)) =
      some (0x3243f6a8885a308d313198a2e0370734, 0x3243f6a8885a308d313198a2e0370734) := by decide +kernel
theorem test_ldst_reserved_field :
    shown (step (placed State.reset 0x00000049 7 0)) (fun t => (t.state, t.err)) = some (0, 2) := by decide +kernel
theorem test_subb :
    shown (step (placed (withState State.reset 0x193de3bea0f4e22b9ac68d2ae9f84808) 0x0000000A 0 0)) (·.dout) =
      some 0xd42711aee0bf98f1b8b45de51e415230 := by decide +kernel
theorem test_invsubb :
    shown (step (placed (withState State.reset 0xe9098972cb31075f3d327d94af2e2cb5) 0x0000000B 0 0)) (·.dout) =
      some 0xeb40f21e592e38848ba113e71bc342d2 := by decide +kernel
theorem test_shr :
    shown (step (placed (withState State.reset 0x000102030405060708090a0b0c0d0e0f) 0x0000000C 0 0)) (·.dout) =
      some 0x00050a0f04090e03080d02070c01060b := by decide +kernel
theorem test_invshr :
    shown (step (placed (withState State.reset 0x000102030405060708090a0b0c0d0e0f) 0x0000000D 0 0)) (·.dout) =
      some 0x000d0a0704010e0b0805020f0c090603 := by decide +kernel
theorem test_mixc :
    shown (step (placed (withState State.reset 0xd4bf5d302d26314cd4d4d4d580000000) 0x0000000E 0 0)) (·.dout) =
      some 0x046681e54d7ebdf8d5d5d7d61b80809b := by decide +kernel
theorem test_invmixc :
    shown (step (placed (withState State.reset 0xd4bf5d302d26314cd4d4d4d580000000) 0x0000000F 0 0)) (·.dout) =
      some 0x265ca3dfa05050d6ddd9dfda41ecdaf7 := by decide +kernel
theorem test_ark :
    shown (step (placed (withState (keyed k1) 0x046681e5e0cb199a48f8d37a2806264c) 0x00000110 0 0))
      (fun t => (t.dout, statusWord t)) = some (0xa49c7ff2689f352b6b5bea43026a5049, 0x06) := by decide +kernel
theorem test_ark_out_of_range :
    shown (step (placed (keyed k1) 0x00000F10 0 0)) (fun t => (t.state, statusWord t)) = some (0, 0x1E) := by
  decide +kernel
theorem test_nop_clears_error :
    shown (step (placed { State.reset with err := 1 } 0x00000000 0 0)) statusWord = some 0x02 := by decide +kernel
theorem test_illegal_word : shown (step (placed State.reset 0x00000011 0 0)) statusWord = some 0x0A := by decide +kernel

/-! ### The handshake (95, section 2.7) -/

theorem test_first_command_after_reset :
    shown (step (State.reset.withFetchWord 32 0x83570001)) (fun t => (t.y, t.host)) = some (0xC1, []) := by decide +kernel
theorem test_accept_gives_busy :
    shown (step { State.reset with host := [.edge (Ports.offer (.gfmul 0x57 0x83) 1 2)] })
      (fun t => (statusWord t, t.cmdr, t.dinr, t.keyr, t.y)) = some (0x01, 0x83570001, 1, 2, 0) := by decide +kernel
theorem test_waiting_edge_keeps_outputs :
    shown (step { placed State.reset 0x83570001 0 0 with edgesLeft := 7 }) (fun t => (statusWord t, t.y, t.cnt, t.gacc)) =
      some (0x01, 0x00, 1, 0x57) := by decide +kernel
theorem test_done_falls_when_idle :
    shown (step { State.reset with done := true, err := 1 }) statusWord = some 0x08 := by decide +kernel
theorem test_reset_during_enc :
    shown (step { placed (keyed k1) 0x00000007 1 0 with edgesLeft := 6, host := [.edge Ports.reset] })
      (fun t => (statusWord t, t.rkt, t.dout)) = some (0x00, State.reset.rkt, 0) := by decide +kernel
theorem test_itoh_tsujii_products :
    (sequencerSteps (.gfinv 0x53) 8 State.reset).gacc = 0xC3 ∧ (sequencerSteps (.gfinv 0x53) 16 State.reset).gacc = 0x9E ∧
    (sequencerSteps (.gfinv 0x53) 24 State.reset).gacc = 0x42 ∧ (sequencerSteps (.gfinv 0x53) 32 State.reset).gacc = 0x8C := by
  decide +kernel
theorem test_stage_sequence_length : stageEncryptCommands.length = 41 ∧ stageDecryptCommands.length = 41 := by decide

/-! ### Cases that meet the hypotheses of the statements -/

/-- A state whose next step completes an ENC with a key loaded. -/
def encReady : State := placed (keyed k1) 0x00000007 0x3243f6a8885a308d313198a2e0370734 0

theorem encReady_atCompletion : encReady.atCompletion := ⟨rfl, rfl, rfl, Ports.quiet, rfl, rfl⟩

theorem test_reset_inv : State.reset.Inv where
  busyExec := by decide
  doneIdle := by decide
  errCode := by decide
  tableEmpty := by decide
  tableExpanded := by decide

theorem test_witness_DecodeFollowsOpcodeMap :
    (0xFFFF0F00#32 &&& 0x0000F0FF = 0x00000000) ∧ (0xFFFF0F01#32 &&& 0x0000F0FF = 0x00000001) ∧
    (0xFFFF0F02#32 &&& 0x0000F0FF = 0x00000002) ∧ (0xFFFF0F03#32 &&& 0x0000F0FF = 0x00000003) ∧
    (0xFFFF0F04#32 &&& 0x0000F0FF = 0x00000004) ∧ (0xFFFF0F05#32 &&& 0x0000F0FF = 0x00000005) ∧
    (0xFFFF0F06#32 &&& 0x0000F0FF = 0x00000006) ∧ (0xFFFF0F07#32 &&& 0x0000F0FF = 0x00000007) ∧
    (0xFFFF0F08#32 &&& 0x0000F0FF = 0x00000008) ∧ (0xFFFF0F09#32 &&& 0x0000F0FF = 0x00000009) ∧
    (0xFFFF0F0A#32 &&& 0x0000F0FF = 0x0000000A) ∧ (0xFFFF0F0B#32 &&& 0x0000F0FF = 0x0000000B) ∧
    (0xFFFF0F0C#32 &&& 0x0000F0FF = 0x0000000C) ∧ (0xFFFF0F0D#32 &&& 0x0000F0FF = 0x0000000D) ∧
    (0xFFFF0F0E#32 &&& 0x0000F0FF = 0x0000000E) ∧ (0xFFFF0F0F#32 &&& 0x0000F0FF = 0x0000000F) ∧
    (0xFFFF0F10#32 &&& 0x0000F0FF = 0x00000010) ∧
    ((0x00000011#32).extractLsb' 0 5).toNat ≥ 0x11 ∧ ((0x0000001F#32).extractLsb' 0 5).toNat ≥ 0x11 ∧
    ((0x00001010#32).extractLsb' 0 5).toNat < 0x11 ∧ reservedSet 0x00001010 ∧ reservedSet 0x00000020 := by decide

theorem test_witness_DecodedWordIsItsEncoding : decode 0xFFFF0B06 = .ok (.rkrd 11) := rfl

theorem test_witness_UnusedFieldsAreIgnored :
    (0xFF530502#32 &&& usedBits (BitVec.extractLsb' 0 5 0xFF530502#32) =
      0x00530002#32 &&& usedBits (BitVec.extractLsb' 0 5 0xFF530502#32)) ∧
    ((placed State.reset 0x00001010 0 0).cmdr.extractLsb' 0 5).toNat < 0x11 ∧
    reservedSet (placed State.reset 0x00001010 0 0).cmdr := by decide

theorem test_witness_field_statements :
    (15 < 16) ∧ ginv 2 ≠ 0 ∧ gmul 0 5 = 0 ∧ (1 : Byte) ≠ 0 ∧ gmul 0x53 0xCA = 1 ∧ gmul 0x53 0xCB ≠ 1 ∧ (0xFF : Byte) ≠ 0 := by decide +kernel

theorem test_witness_sequencer_statements : State.reset.cnt = 0 ∧ 0 ≤ 7 ∧ 7 ≤ 7 ∧ encReady.cnt = 0 := by decide

theorem test_witness_index_ranges :
    (0 < 8 ∧ 7 < 8) ∧ (1 ≤ 1 ∧ 9 ≤ 9) ∧ (4 ≤ 4 ∧ 4 % 4 = 0 ∧ 43 ≤ 43 ∧ 43 % 4 ≠ 0) ∧ (0 < 16 ∧ 15 < 16) ∧ (0 < 4 ∧ 3 < 4) := by
  decide

theorem test_witness_StageCommandsComposeToBlock : (keyed k1).keyValid = true := rfl

theorem test_witness_word_clauses :
    (∀ op ∈ ([0, 1, 2, 3, 4, 5, 6, 7, 8, 9, 10, 11, 12, 13, 14, 15, 16] : List Nat),
      ((placed State.reset (BitVec.ofNat 32 op) 0 0).cmdr.extractLsb' 0 5).toNat = op ∧
      ¬ reservedSet (placed State.reset (BitVec.ofNat 32 op) 0 0).cmdr ∧
      ((placed State.reset (BitVec.ofNat 32 (op + 32)) 0 0).cmdr.extractLsb' 0 5).toNat = op ∧
      reservedSet (placed State.reset (BitVec.ofNat 32 (op + 32)) 0 0).cmdr) := by decide

theorem test_witness_RkrdReadsRoundKey_ArkAddsRoundKey :
    (10#4).toNat < 11 ∧ (0#4).toNat < 11 ∧ (11#4).toNat > 10 ∧ (15#4).toNat > 10 ∧ (10#4).toNat ≤ 10 ∧
    (keyed k1).keyValid = true ∧ State.reset.keyValid = false ∧ (keyed k1).rkt = expand k1 ∧
    (withState (keyed k1) 0x3243f6a8885a308d313198a2e0370734).rkt = expand 0x2b7e151628aed2a6abf7158809cf4f3c ∧
    (withState (keyed k1) 0x3243f6a8885a308d313198a2e0370734).state = 0x3243f6a8885a308d313198a2e0370734 :=
  ⟨by decide, by decide, by decide, by decide, by decide, rfl, rfl, rfl, rfl, rfl⟩

theorem test_witness_MixcInvmixcTransformState :
    3 < 4 ∧ ∀ r, r < 4 → elemAt 0xd4bf5d30000000000000000001010101 r 3 = 0x01 := by decide +kernel

theorem test_witness_ErrorProcedureIsFollowed :
    errorCodeOf 0x000000F1 false = 1 ∧ errorCodeOf 0x00001B06 false = 2 ∧ errorCodeOf 0x00000B06 false = 3 ∧
    errorCodeOf 0x00000010 false = 4 ∧ errorCodeOf 0x00000F10 true = 3 ∧ errorCodeOf 0x00000A10 true = 0 ∧
    errorCodeOf 0xFFFF0A07 true = 0 ∧ errorCodeOf 0x00000B0E false = 0 := by decide

theorem test_witness_CommandsWriteOnlyTheirRegisters :
    exec .nop State.reset = .next (State.reset.endWith errNone) ∧ writesState .nop = false ∧ writesDout .nop = false ∧
    writesY .nop = false ∧ Instr.nop ≠ .keyexp ∧ writesState (.rkrd 10) = false ∧ writesDout (.gfmul 1 2) = false ∧
    writesY .enc = false := ⟨rfl, rfl, rfl, rfl, by decide, rfl, rfl, rfl⟩

theorem test_witness_TableMemoryIsByteAddressed : 10 < 11 ∧ 15 < 16 ∧ 176 ≤ 176 ∧ 11 ≤ 11 := by decide

theorem test_witness_ResultsDependOnlyOnOperands :
    encReady.dinr = { encReady with state := 5, y := 3 }.dinr ∧ encReady.rkt = { encReady with state := 5, y := 3 }.rkt ∧
    encReady.keyValid = true ∧ { encReady with state := 5, y := 3 }.keyValid = true ∧ readsTable .mixc = false ∧
    readsTable .keyexp = false := ⟨rfl, rfl, rfl, rfl, rfl, rfl⟩

theorem test_witness_StepRunsDecodedCommand :
    encReady.atCompletion ∧ decode encReady.cmdr = .ok .enc ∧
    (placed State.reset 0x00000011 0 0).atCompletion ∧ decode (placed State.reset 0x00000011 0 0).cmdr = .error .illegal ∧
    decode (placed State.reset 0x00000007 0 0).cmdr = .ok .enc ∧
    commandError .enc (placed State.reset 0x00000007 0 0) ≠ none :=
  ⟨encReady_atCompletion, rfl, ⟨rfl, rfl, rfl, Ports.quiet, rfl, rfl⟩, rfl, rfl, by decide⟩

theorem test_witness_AcceptanceCapturesOperands :
    State.reset.initialised = true ∧ State.reset.fsm = .idle ∧ (Ports.offer .nop 1 2).rst = false ∧
    (Ports.offer .nop 1 2).cmdValid = true ∧
    { State.reset with host := [.edge (Ports.offer .nop 1 2)] }.host = .edge (Ports.offer .nop 1 2) :: [] :=
  ⟨rfl, rfl, rfl, rfl, rfl⟩

theorem test_witness_steps_that_answer :
    (∃ t, step State.reset = .next t) ∧ State.reset.nextPorts ≠ none ∧ (∃ t, step encReady = .next t) ∧
    encReady.nextPorts ≠ none :=
  ⟨⟨_, rfl⟩, by decide, ⟨_, rfl⟩, by decide⟩

theorem test_witness_reset_statements :
    { encReady with host := [.edge Ports.reset, .edge Ports.reset] }.host = [.edge Ports.reset, .edge Ports.reset] ∧
    Ports.reset.rst = true ∧ encReady.fsm = .exec ∧
    (∀ q ∈ [Ports.quiet, Ports.quiet], q.rst = false ∧ q.cmdValid = false) ∧
    { encReady with host := [.edge Ports.reset] }.atReset :=
  ⟨rfl, rfl, rfl, by decide, Ports.reset, rfl, rfl⟩

theorem test_witness_NothingBeforeFirstReset :
    State.reset.losePower.initialised = false ∧ State.reset.losePower.nextPorts = some Ports.quiet ∧
    Ports.quiet.rst = false ∧ { State.reset with host := [.powerLoss] }.nextPorts = none ∧
    { State.reset.losePower with host := [.edge Ports.reset] }.atReset :=
  ⟨rfl, rfl, rfl, rfl, Ports.reset, rfl, rfl⟩

theorem test_witness_InvariantKeptByEveryStep :
    State.reset.InvSinceReset ∧ State.reset.initialised = true ∧ step State.reset = .next State.reset :=
  ⟨fun _ => test_reset_inv, rfl, rfl⟩

theorem test_witness_OutputsChangeOnlyAtTheirEdges :
    (∃ t, step encReady = .next t ∧ encReady.busy = true ∧ t.busy = false ∧ t.fsm = .idle ∧ t.done = true) ∧
    encReady.nextPorts ≠ none ∧
    { State.reset with host := [.edge (Ports.offer .nop 1 2)] }.atAcceptance ∧ encReady.atCompletion :=
  ⟨⟨_, rfl, rfl, rfl, rfl, rfl⟩, by decide, ⟨rfl, rfl, Ports.offer .nop 1 2, rfl, rfl, rfl⟩, encReady_atCompletion⟩

theorem test_witness_PortsSeenOnlyAtAcceptance :
    encReady.fsm = .exec ∧ (Ports.offer .nop 1 2).rst = false ∧ Ports.quiet.rst = false ∧ State.reset.fsm = .idle ∧
    { Ports.quiet with din := 9 }.cmdValid = false ∧ Ports.quiet.cmdValid = false := ⟨rfl, rfl, rfl, rfl, rfl, rfl⟩

theorem test_witness_TableChangesOnlyByKeyexpOrReset :
    (∃ t, step (placed State.reset 0x00000005 0 k1) = .next t ∧
      t.keyValid ≠ (placed State.reset 0x00000005 0 k1).keyValid) ∧
    (∃ t, step { keyed k1 with host := [.edge Ports.reset] } = .next t ∧ t.keyValid = false) ∧
    (keyed k1).keyValid = true ∧ (placed State.reset 0x00000005 0 k1).nextPorts ≠ none ∧
    { keyed k1 with host := [.edge Ports.reset] }.nextPorts ≠ none :=
  ⟨⟨_, rfl, by decide⟩, ⟨_, rfl, rfl⟩, rfl, by decide, by decide⟩

theorem test_witness_EdgesRefineTransactions :
    (keyed k1).initialised = true ∧ (keyed k1).fsm = .idle ∧ (Ports.offer .enc 1 2).rst = false ∧
    (Ports.offer .enc 1 2).cmdValid = true ∧ ∀ q ∈ [Ports.quiet, Ports.offer .nop 3 4], q.rst = false :=
  ⟨rfl, rfl, rfl, rfl, by decide⟩

theorem test_witness_OutputPortsAreWires : State.reset.initialised = true := rfl

/-- Whether a command is accepted at step `j`, counted from 0. -/
def acceptsAt (j : Nat) (s : State) : Bool :=
  match Sys2Proof.core.run j s with
  | .next u => u.initialised && u.fsm == .idle && u.nextPorts.any fun p => !p.rst && p.cmdValid
  | .fault _ | .refused _ => false

theorem not_atAcceptance {j : Nat} {s u : State} (h : acceptsAt j s = false) (hu : Sys2Proof.core.run j s = .next u) :
    ¬ u.atAcceptance := by
  rintro ⟨hi, hf, p, hp, hr, hv⟩
  simp [acceptsAt, hu, hi, hf, hp, hr, hv] at h

/-- `s` with a word in flight that has `n` edges to completion, and a host that offers a NOP at every one of them. -/
def inFlight (s : State) (w : CmdWord) (n : Nat) : State :=
  { placed s w 5 k1 with edgesLeft := n - 1, host := List.replicate n (.edge (Ports.offer .nop 1 2)) }

/-- The hypotheses of ReferenceFsmRefinesStep on a state and a number of steps. -/
abbrev ReferenceCase (s : State) (n : Nat) : Prop :=
  (s.fsm = .exec → s.cnt = 0 ∧ s.latencyIsReference) ∧
  (∀ (j : Nat) (u t : State), j < n → Sys2Proof.core.run j s = .next u → u.atAcceptance → step u = .next t →
    t.latencyIsReference)

/-- What the hypotheses of ReferenceFsmRefinesStep come to on a state with no acceptance before step `n`. -/
theorem reference_hypotheses {s : State} {n : Nat} {i : Instr} (hd : decode s.cmdr = .ok i) (hc : s.cnt = 0)
    (hl : s.edgesLeft + 1 = refLatency i) (ha : ∀ j, j < n → acceptsAt j s = false) : ReferenceCase s n := by
  refine ⟨fun _ => ⟨hc, fun k hk _ => ?_⟩, fun j u t hj hu hacc _ => absurd hacc (not_atAcceptance (ha j hj) hu)⟩
  cases hd.symm.trans hk
  exact hl

/-- One command of every latency, to its completion, with an offer held all the while. -/
theorem test_witness_ReferenceFsmRefinesStep :
    ReferenceCase (inFlight (keyed k1) 0x83570001 8) 8 ∧ ReferenceCase (inFlight (keyed k1) 0x00530002 32) 32 ∧
    ReferenceCase (inFlight (keyed k1) 0x00000005 10) 10 ∧ ReferenceCase (inFlight (keyed k1) 0x00000007 11) 11 ∧
    ReferenceCase (inFlight (keyed k1) 0x00000008 11) 11 ∧ ReferenceCase (inFlight (keyed k1) 0x0000000E 1) 1 :=
  ⟨reference_hypotheses rfl rfl rfl (by decide +kernel), reference_hypotheses rfl rfl rfl (by decide +kernel),
   reference_hypotheses rfl rfl rfl (by decide +kernel), reference_hypotheses rfl rfl rfl (by decide +kernel),
   reference_hypotheses rfl rfl rfl (by decide +kernel), reference_hypotheses rfl rfl rfl (by decide +kernel)⟩

/-- A reset in the middle of an ENC and idle edges after it; a run that starts idle; a power loss. -/
theorem test_witness_ReferenceFsmRefinesStep_events :
    ReferenceCase { inFlight (keyed k1) 0x00000007 11 with
      host := [.edge Ports.quiet, .edge Ports.reset, .edge Ports.quiet] } 9 ∧
    ReferenceCase State.reset 9 ∧
    ReferenceCase { inFlight (keyed k1) 0x00000007 11 with host := [.powerLoss, .edge Ports.reset] } 9 :=
  ⟨reference_hypotheses rfl rfl rfl (by decide +kernel),
   ⟨fun h => (nomatch h), fun _ _ _ hj hu hacc _ =>
     absurd hacc (not_atAcceptance ((by decide +kernel : ∀ j, j < 9 → acceptsAt j State.reset = false) _ hj) hu)⟩,
   reference_hypotheses rfl rfl rfl (by decide +kernel)⟩

/-- An offer accepted on the way: an illegal word, which ends in error whatever latency is drawn for it. -/
theorem test_witness_ReferenceFsmRefinesStep_acceptance :
    { State.reset with host := [.edge (Ports.offerWord 0x11 1 2)] }.atAcceptance ∧
    ReferenceCase { State.reset with host := [.edge (Ports.offerWord 0x11 1 2)] } 4 := by
  refine ⟨⟨rfl, rfl, Ports.offerWord 0x11 1 2, rfl, rfl, rfl⟩, fun h => (nomatch h), fun j u t hj hu hacc ht => ?_⟩
  match j with
  | 0 =>
    cases hu
    cases ht
    exact fun i hi _ => nomatch (show (decode 0x11 : Except DecodeError Instr) = .ok i from hi)
  | j + 1 =>
    exact absurd hacc (not_atAcceptance ((by decide +kernel : ∀ j, j < 3 → acceptsAt (j + 1)
      { State.reset with host := [.edge (Ports.offerWord 0x11 1 2)] } = false) j (by omega)) hu)

end Sys2Proof.Tests
end

section
/-! SUPPORT. The family 10_state: how the registers move at one step. First what each shared operation leaves unchanged, then
the moves of a rising edge, then the invariant and the frames that follow from them. -/

namespace Sys2Proof.Machine

/-! ### The sequencer step writes hidden registers only (44 R213, 10 R45) -/

theorem sequencerEdge_frame (s : State) : sequencerEdge s = s.withHiddenOf (sequencerEdge s) := by
  unfold sequencerEdge
  cases decode s.cmdr with
  | error e => rfl
  | ok i =>
    dsimp only
    split
    · rfl
    · exact seqStep_frame i s

/-! ### What the register writes of a command can be (10 R33) -/

/-- A command writes nothing, `Y`, `DOUT`, `STATE` with `DOUT`, or the table, and only where the matrix of 10 R33 says so. -/
theorem commandWrites_cases (i : Instr) (s : State) :
    commandWrites i s = s ∨
    (writesY i = true ∧ ∃ v, commandWrites i s = s.writeY v) ∨
    (writesDout i = true ∧ ∃ v, commandWrites i s = s.writeDout v) ∨
    (writesState i = true ∧ writesDout i = true ∧ ∃ v, commandWrites i s = s.writeState v) ∨
    (i = .keyexp ∧ commandWrites i s = s.loadTable (expand s.keyr)) := by
  cases i
  case nop => exact .inl rfl
  case gfmul | gfinv | sbox | invsbox => exact .inr (.inl ⟨rfl, _, rfl⟩)
  case rkrd => exact .inr (.inr (.inl ⟨rfl, _, rfl⟩))
  case keyexp => exact .inr (.inr (.inr (.inr ⟨rfl, rfl⟩)))
  all_goals exact .inr (.inr (.inr (.inl ⟨rfl, rfl, _, rfl⟩)))

/-- A command keeps the table, or it is KEYEXP and loads the expansion of `KEYR` (10 R24, R25). -/
theorem commandWrites_table (i : Instr) (s : State) :
    ((commandWrites i s).rkt = s.rkt ∧ (commandWrites i s).keyValid = s.keyValid) ∨
    (i = .keyexp ∧ (commandWrites i s).rkt = expand s.keyr ∧ (commandWrites i s).keyValid = true) := by
  rcases commandWrites_cases i s with h | ⟨_, v, h⟩ | ⟨_, v, h⟩ | ⟨_, _, v, h⟩ | ⟨hi, h⟩ <;> rw [h]
  case inr.inr.inr.inr => exact .inr ⟨hi, rfl, rfl⟩
  all_goals exact .inl ⟨rfl, rfl⟩

/-- The writes of a captured word reach the table only as KEYEXP's, which load the expansion of `KEYR` (10 R24, R25). -/
theorem wordWrites_table (s : State) :
    ((wordWrites s).rkt = s.rkt ∧ (wordWrites s).keyValid = s.keyValid) ∨
    (decode s.cmdr = .ok .keyexp ∧ (wordWrites s).rkt = expand s.keyr ∧ (wordWrites s).keyValid = true) := by
  unfold wordWrites
  cases decode s.cmdr with
  | error e => exact .inl ⟨rfl, rfl⟩
  | ok i => exact (commandWrites_table i s).imp_right fun ⟨hi, h⟩ => ⟨congrArg _ hi, h⟩

/-- The bytes of the three memories depend on the table alone (20 R50). -/
theorem readByte_congr {s t : State} (h : t.rkt = s.rkt) (sp : Space) (a : Nat) : readByte t sp a = readByte s sp a := by
  cases sp <;> simp [readByte, h]

/-! ### Completion, by its two outcomes (44 R205, 60 R235) -/

theorem exec_cases {i : Instr} {s t : State} (h : exec i s = .next t) :
    (∃ e, commandError i s = some e ∧ t = s.endWith e) ∨
    (commandError i s = none ∧ t = (commandWrites i s).endWith errNone) := by
  rw [exec_eq] at h
  cases hc : commandError i s <;> simp only [hc] at h <;> cases h
  · exact .inr ⟨rfl, rfl⟩
  · exact .inl ⟨_, rfl, rfl⟩

theorem completeWord_cases {s t : State} (h : completeWord s = .next t) :
    (∃ e, wordError s = some e ∧ t = s.endWith e) ∨
    (wordError s = none ∧ t = (wordWrites s).endWith errNone) := by
  rw [completeWord_eq] at h
  cases hc : wordError s <;> simp only [hc] at h <;> cases h
  · exact .inr ⟨rfl, rfl⟩
  · exact .inl ⟨_, rfl, rfl⟩

theorem completeWord_done {s t : State} (h : completeWord s = .next t) : t.done = true := by
  rcases completeWord_cases h with ⟨e, _, rfl⟩ | ⟨_, rfl⟩ <;> rfl

/-- A completion keeps the table and `KEY_VALID`, or it is KEYEXP's (10 R24, R25). -/
theorem completeWord_table {s t : State} (h : completeWord s = .next t) :
    (t.rkt = s.rkt ∧ t.keyValid = s.keyValid) ∨
    (decode s.cmdr = .ok .keyexp ∧ t.rkt = expand s.keyr ∧ t.keyValid = true) := by
  rcases completeWord_cases h with ⟨e, _, rfl⟩ | ⟨_, rfl⟩
  · simp
  · simpa using wordWrites_table s

/-- A word ends in error with one of the codes of 60 R230. -/
theorem wordError_toNat_le {s : State} {e : BitVec 3} (h : wordError s = some e) : e.toNat ≤ 4 := by
  unfold wordError at h
  cases hd : decode s.cmdr with
  | error d =>
    simp only [hd] at h
    cases h
    cases d <;> decide
  | ok i =>
    simp only [hd] at h
    obtain rfl | rfl := commandError_code h <;> decide

/-! ### The moves of a rising edge (44 R207, 70 R260) -/

/-- The state in which the next event acts: that event taken off the host's list. -/
def State.afterEvent (s : State) : State := { s with host := s.laterHost }

/-- The next step is an edge of an idle core with no command offered. -/
def State.atIdle (s : State) : Prop :=
  s.initialised = true ∧ s.fsm = .idle ∧ ∃ p, s.nextPorts = some p ∧ p.rst = false ∧ p.cmdValid = false

/-- The next step is an `EXEC` edge before the completing one. -/
def State.atWait (s : State) : Prop :=
  s.initialised = true ∧ s.fsm = .exec ∧ completesNow s = false ∧ ∃ p, s.nextPorts = some p ∧ p.rst = false

/-- The moves of a rising edge, each with its guard and the state it leaves: reset, idle, acceptance, one more cycle, completion. -/
def EdgeMove (s t : State) : Prop :=
  (s.atReset ∧ t = s.afterEvent.resetEdge) ∨
  (s.atIdle ∧ t = s.afterEvent.idleEdge) ∨
  (s.atAcceptance ∧ ∃ p, s.nextPorts = some p ∧ t = s.afterEvent.accept p) ∨
  (s.atWait ∧ t = (sequencerEdge s.afterEvent).waitEdge) ∨
  (s.atCompletion ∧ completeWord (sequencerEdge s.afterEvent) = .next t)

/-- An exhausted list stays as it is (log entry 1). -/
theorem State.afterEvent_of_nil {s : State} (h : s.host = []) : s.afterEvent = s := by
  have htail : s.laterHost = s.host := (congrArg List.tail h).trans h.symm
  show { s with host := s.laterHost } = s
  rw [htail]

/-- One step: a clock edge with the port values to take, or a power loss where there are none. -/
theorem step_eq (s : State) :
    step s = match s.nextPorts with
      | some p => clockEdge p s.afterEvent
      | none => .next s.afterEvent.losePower := by
  unfold step hostStep State.nextPorts
  cases hs : s.host with
  | nil => exact congrArg (clockEdge Ports.quiet) (State.afterEvent_of_nil hs).symm
  | cons e rest =>
    have hrest : s.afterEvent = { s with host := rest } := congrArg (fun h => { s with host := h.tail }) hs
    rw [hrest]
    cases e <;> rfl

theorem step_of_nextPorts {s : State} {p : Ports} (hp : s.nextPorts = some p) : step s = clockEdge p s.afterEvent := by
  rw [step_eq, hp]

theorem step_of_no_ports {s : State} (hp : s.nextPorts = none) : step s = .next s.afterEvent.losePower := by
  rw [step_eq, hp]

/-- Every rising edge that answers a next state is one of the moves. -/
theorem EdgeMove.of_step {s t : State} {p : Ports} (h : step s = .next t) (hp : s.nextPorts = some p) : EdgeMove s t := by
  rw [step_of_nextPorts hp] at h
  rcases clockEdge_cases h with
    ⟨hr, rfl⟩ | ⟨hr, hi, ⟨hf, hv, rfl⟩ | ⟨hf, hv, rfl⟩ | ⟨hf, hc, rfl⟩ | ⟨hf, hc, ht⟩⟩
  · exact .inl ⟨⟨p, hp, hr⟩, rfl⟩
  · exact .inr (.inl ⟨⟨hi, hf, p, hp, hr, hv⟩, rfl⟩)
  · exact .inr (.inr (.inl ⟨⟨hi, hf, p, hp, hr, hv⟩, p, hp, rfl⟩))
  · exact .inr (.inr (.inr (.inl ⟨⟨hi, hf, hc, p, hp, hr⟩, rfl⟩)))
  · exact .inr (.inr (.inr (.inr ⟨⟨hi, hf, hc, p, hp, hr⟩, ht⟩)))

/-- Reset takes precedence over completion (70 R260). -/
theorem State.atReset.not_atCompletion {s : State} (h : s.atReset) : ¬ s.atCompletion := by
  obtain ⟨p, hp, hr⟩ := h
  rintro ⟨-, -, -, q, hq, hr'⟩
  cases hp.symm.trans hq
  cases hr.symm.trans hr'

theorem State.atIdle.not_atCompletion {s : State} (h : s.atIdle) : ¬ s.atCompletion := by
  obtain ⟨-, hf, -⟩ := h
  rintro ⟨-, hf', -⟩
  cases hf.symm.trans hf'

theorem State.atAcceptance.not_atCompletion {s : State} (h : s.atAcceptance) : ¬ s.atCompletion := by
  obtain ⟨-, hf, -⟩ := h
  rintro ⟨-, hf', -⟩
  cases hf.symm.trans hf'

theorem State.atWait.not_atCompletion {s : State} (h : s.atWait) : ¬ s.atCompletion := by
  obtain ⟨-, -, hc, -⟩ := h
  rintro ⟨-, -, hc', -⟩
  cases hc.symm.trans hc'

/-- `DONE` rises in the completing move and falls in every other (10 R29). -/
theorem EdgeMove.done_iff {s t : State} (m : EdgeMove s t) : t.done = true ↔ s.atCompletion := by
  rcases m with ⟨h, rfl⟩ | ⟨h, rfl⟩ | ⟨h, p, hp, rfl⟩ | ⟨h, rfl⟩ | ⟨h, ht⟩
  case inr.inr.inr.inr => exact iff_of_true (completeWord_done ht) h
  all_goals exact iff_of_false nofun h.not_atCompletion

/-- The table and `KEY_VALID` move at reset and where a KEYEXP completes, and are kept by every other move (10 R24, R25). -/
theorem EdgeMove.table_cases {s t : State} (m : EdgeMove s t) :
    s.atReset ∨ (t.rkt = s.rkt ∧ t.keyValid = s.keyValid) ∨
    (s.atCompletion ∧ decode s.cmdr = .ok .keyexp ∧ t.rkt = expand s.keyr ∧ t.keyValid = true) := by
  rcases m with ⟨h, rfl⟩ | ⟨h, rfl⟩ | ⟨h, p, hp, rfl⟩ | ⟨h, rfl⟩ | ⟨h, ht⟩
  · exact .inl h
  · exact .inr (.inl ⟨rfl, rfl⟩)
  · exact .inr (.inl ⟨rfl, rfl⟩)
  · rw [sequencerEdge_frame]
    exact .inr (.inl ⟨rfl, rfl⟩)
  · rw [sequencerEdge_frame] at ht
    exact .inr ((completeWord_table ht).imp_right fun hkey => ⟨h, hkey⟩)

/-! ### The invariant, kept by each operation -/

theorem reset_rkt_get : ∀ r : Fin 11, State.reset.rkt.get r = 0 := by decide

namespace State.Inv

theorem resetEdge (s : State) : s.resetEdge.Inv where
  busyExec := by simp
  doneIdle := by simp
  errCode := by simp
  tableEmpty := fun _ => reset_rkt_get
  tableExpanded := nofun

variable {s : State} (h : s.Inv)
include h

theorem afterEvent : s.afterEvent.Inv :=
  ⟨h.busyExec, h.doneIdle, h.errCode, h.tableEmpty, h.tableExpanded⟩

theorem withHiddenOf (u : State) : (s.withHiddenOf u).Inv :=
  ⟨h.busyExec, h.doneIdle, h.errCode, h.tableEmpty, h.tableExpanded⟩

theorem sequencerEdge : (sequencerEdge s).Inv :=
  sequencerEdge_frame s ▸ h.withHiddenOf _

theorem idleEdge : s.idleEdge.Inv :=
  ⟨h.busyExec, nofun, h.errCode, h.tableEmpty, h.tableExpanded⟩

theorem accept (p : Ports) : (s.accept p).Inv :=
  ⟨by simp, nofun, h.errCode, h.tableEmpty, h.tableExpanded⟩

theorem waitEdge : s.waitEdge.Inv :=
  ⟨h.busyExec, nofun, h.errCode, h.tableEmpty, h.tableExpanded⟩

/-- A completion leaves the table of before, or KEYEXP's, the expansion of `KEYR`; and one of the five codes. -/
theorem completeWord {t : State} (ht : completeWord s = .next t) : t.Inv := by
  obtain ⟨hbusy, hdone, herr⟩ : (t.busy = true ↔ t.fsm = .exec) ∧ (t.done = true → t.fsm = .idle) ∧ t.err.toNat ≤ 4 := by
    rcases completeWord_cases ht with ⟨e, he, rfl⟩ | ⟨_, rfl⟩
    · simpa using wordError_toNat_le he
    · simp [errNone]
  rcases completeWord_table ht with ⟨hr, hv⟩ | ⟨_, hr, hv⟩
  · exact ⟨hbusy, hdone, herr, fun hk => hr ▸ h.tableEmpty (hv ▸ hk), fun hk => hr ▸ h.tableExpanded (hv ▸ hk)⟩
  · exact ⟨hbusy, hdone, herr, fun hk => by simp [hk] at hv, fun _ => ⟨s.keyr, hr⟩⟩

end State.Inv

/-- Every move of a rising edge keeps the invariant, and a reset edge establishes it. -/
theorem EdgeMove.inv {s t : State} (m : EdgeMove s t) (h : s.InvSinceReset) : t.Inv := by
  rcases m with ⟨_, rfl⟩ | ⟨⟨hi, _⟩, rfl⟩ | ⟨⟨hi, _⟩, p, _, rfl⟩ | ⟨⟨hi, _⟩, rfl⟩ | ⟨⟨hi, _⟩, ht⟩
  · exact .resetEdge _
  · exact (h hi).afterEvent.idleEdge
  · exact (h hi).afterEvent.accept p
  · exact (h hi).afterEvent.sequencerEdge.waitEdge
  · exact (h hi).afterEvent.sequencerEdge.completeWord ht

/-! ### The output ports and the status word (10 R20, R30) -/

theorem observe_of_initialised {s : State} (hi : s.initialised = true) (rst : Bool) :
    observe rst s = some { cmdReady := cmdReady rst s, dout := s.dout, y := s.y, status := statusWord s } :=
  if_pos hi

/-- A bit of the status word is a bit of the field it lies in. -/
theorem getLsbD_statusWord (s : State) (i : Nat) :
    (statusWord s).getLsbD i =
      if i = 0 then s.busy else if i = 1 then s.done else if i = 2 then s.keyValid else s.err.getLsbD (i - 3) := by
  simp only [statusWord, BitVec.getLsbD_append, BitVec.getLsbD_ofBool]
  rcases i with _ | _ | _ | i <;> simp
  exact BitVec.lt_of_getLsbD

/-! ### The obligations of the family -/

/-- Settles O52: a rising edge makes one of the moves, each of which keeps the invariant; a power loss clears the flag. -/
theorem invariantKeptByEveryStep : Obligations.InvariantKeptByEveryStep := by
  unfold Obligations.InvariantKeptByEveryStep
  intro s t hs h hi
  cases hp : s.nextPorts with
  | none =>
    rw [step_of_no_ports hp] at h
    cases h
    cases hi
  | some p => exact (EdgeMove.of_step h hp).inv hs

/-- Settles O41: both outcomes of a command, an error alone and the command's writes, keep to the matrix of 10 R33. -/
theorem commandsWriteOnlyTheirRegisters : Obligations.CommandsWriteOnlyTheirRegisters := by
  unfold Obligations.CommandsWriteOnlyTheirRegisters
  intro i s t h
  rcases exec_cases h with ⟨e, _, rfl⟩ | ⟨_, rfl⟩
  · exact ⟨fun _ => rfl, fun _ => rfl, fun _ => rfl, fun _ => ⟨rfl, rfl, readByte_congr rfl⟩, fun _ => ⟨rfl, rfl⟩, rfl⟩
  · rcases commandWrites_cases i s with h | ⟨hy, v, h⟩ | ⟨hd, v, h⟩ | ⟨hs, hd, v, h⟩ | ⟨hi, h⟩ <;> rw [h]
    case inr.inr.inr.inr =>
      exact ⟨fun _ => rfl, fun _ => rfl, fun _ => rfl, fun hk => absurd hi hk, fun _ => ⟨rfl, rfl⟩, rfl⟩
    all_goals
      refine ⟨?_, ?_, ?_, fun _ => ⟨rfl, rfl, readByte_congr rfl⟩, fun _ => ⟨rfl, rfl⟩, rfl⟩
      all_goals simp [*]

/-- Settles O46: `DONE` is 1 after the completing move and after no other. -/
theorem doneIsOneCyclePulse : Obligations.DoneIsOneCyclePulse := by
  unfold Obligations.DoneIsOneCyclePulse
  intro s t h hp
  obtain ⟨p, hp⟩ := Option.ne_none_iff_exists'.mp hp
  exact (EdgeMove.of_step h hp).done_iff

/-- Settles O56: of the moves only reset and the completion of a KEYEXP reach the table, and KEYEXP sets `KEY_VALID`. -/
theorem tableChangesOnlyByKeyexpOrReset : Obligations.TableChangesOnlyByKeyexpOrReset := by
  unfold Obligations.TableChangesOnlyByKeyexpOrReset
  intro s t h hp
  obtain ⟨p, hp⟩ := Option.ne_none_iff_exists'.mp hp
  rcases (EdgeMove.of_step h hp).table_cases with hreset | ⟨hr, hv⟩ | hkey
  · exact ⟨fun _ => .inl hreset, fun _ _ => hreset⟩
  · exact ⟨fun hc => by simp [hr, hv] at hc, fun ht hf => by simp [hv, ht] at hf⟩
  · exact ⟨fun _ => .inr hkey, fun _ hf => by simp [hf] at hkey⟩

/-- Settles O48: each register of `State.reset` is read off its definition. -/
theorem resetStateValues : Obligations.ResetStateValues := by
  unfold Obligations.ResetStateValues
  have hshadow : ∀ r : Fin 10, State.reset.shadow.get r = 0 := by decide
  exact ⟨rfl, rfl, rfl, reset_rkt_get, rfl, rfl, rfl, rfl, rfl, rfl, rfl, rfl, rfl, rfl, hshadow, rfl, rfl, rfl, rfl, rfl, rfl⟩

/-- Settles O53: the reset state is what a reset edge makes of itself. -/
theorem invariantHoldsAtReset : Obligations.InvariantHoldsAtReset := State.Inv.resetEdge State.reset

/-- Settles O57: each field of the concatenation lies where 10 R30 puts it. -/
theorem statusWordLayout : Obligations.StatusWordLayout := by
  unfold Obligations.StatusWordLayout
  intro s
  refine ⟨getLsbD_statusWord s 0, getLsbD_statusWord s 1, getLsbD_statusWord s 2, ?_, ?_⟩
  all_goals
    apply BitVec.eq_of_getLsbD_eq
    intro i hi
    rw [BitVec.getLsbD_extractLsb', getLsbD_statusWord]
    interval_cases i <;> simp

/-- Settles O60: the ports show `cmd_ready`, the two registers and the status word, whose bits O57 gives. -/
theorem outputPortsAreWires : Obligations.OutputPortsAreWires := by
  unfold Obligations.OutputPortsAreWires
  refine ⟨fun s rst hi => ⟨_, observe_of_initialised hi rst, ?_, rfl, rfl, statusWordLayout s⟩, fun s u rst hi => ?_⟩
  · simp [cmdReady]
  · exact (observe_of_initialised rfl rst).trans (observe_of_initialised hi rst).symm

end Sys2Proof.Machine
end

section
/-! SUPPORT. The family 20_memory: the byte view of the round-key table. First what a multi-byte read gives, then which
bytes of the table exist, and that the eleven entry writes of KEYEXP leave the expanded key. -/

namespace Sys2Proof.Machine

/-! ### Multi-byte reads (00 R14) -/

/-- A read of one byte more appends the byte at the next address. -/
theorem memRead_succ (s : State) (sp : Space) (addr n : Nat) :
    memRead s sp addr (n + 1) =
      (memRead s sp addr n).bind fun l => (readByte s sp (addr + n)).map fun b => l ++ [b] := by
  simp only [memRead, List.range_succ, List.mapM_append, List.mapM_cons, List.mapM_nil]
  cases readByte s sp (addr + n) <;> rfl

/-- A read of bytes that all exist gives them in rising address order. -/
theorem memRead_eq_some {s : State} {sp : Space} {addr n : Nat} {f : Nat → Byte}
    (h : ∀ k, k < n → readByte s sp (addr + k) = some (f k)) :
    memRead s sp addr n = some ((List.range n).map f) := by
  induction n with
  | zero => rfl
  | succ n ih =>
    have hinit := ih fun k hk => h k (by omega)
    simp [memRead_succ, hinit, h n, List.range_succ]

/-- A read that meets an absent byte is absent. -/
theorem memRead_eq_none {s : State} {sp : Space} {addr n k : Nat} (hk : k < n)
    (h : readByte s sp (addr + k) = none) : memRead s sp addr n = none := by
  induction n with
  | zero => omega
  | succ n ih =>
    rcases Nat.lt_succ_iff_lt_or_eq.mp hk with hlt | rfl
    · simp [memRead_succ, ih hlt]
    · simp [memRead_succ, h]

/-! ### The bytes of the table (20 R51) -/

/-- Byte `k` of an entry that exists. -/
theorem readByte_rkt_of_lt (s : State) {r k : Nat} (hr : r < 11) (hk : k < 16) :
    readByte s .rkt (16 * r + k) = some (byteAt s.rkt[r] k) := by
  simp [readByte_rkt s r k hk, hr]

/-- No byte of the table lies beyond its size. -/
theorem readByte_rkt_of_ge (s : State) {a : Nat} (ha : 176 ≤ a) : readByte s .rkt a = none := by
  have hr : ¬ a / 16 < 11 := by omega
  simp [readByte, hr]

/-! ### KEYEXP as eleven entry writes (42 R155) -/

/-- Entry `r` of the expanded key is round key `r`. -/
theorem expand_getElem (key : Block) (r : Nat) (hr : r < 11) : (expand key)[r] = roundKeyOf key r := by
  interval_cases r <;> rfl

/-- The first `n` entry writes of KEYEXP: entry `r` with round key `r` of the captured key, in rising order. -/
def writeRoundKeys (s : State) (n : Nat) : State :=
  (List.range n).foldl (fun s r => memWriteRkt s r (roundKeyOf s.keyr r)) s

theorem writeRoundKeys_succ (s : State) (n : Nat) :
    writeRoundKeys s (n + 1) =
      memWriteRkt (writeRoundKeys s n) n (roundKeyOf (writeRoundKeys s n).keyr n) := by
  simp [writeRoundKeys, List.range_succ]

/-- The entry writes reach the table only. -/
theorem writeRoundKeys_frame (s : State) (n : Nat) :
    writeRoundKeys s n = { s with rkt := (writeRoundKeys s n).rkt } := by
  induction n with
  | zero => rfl
  | succ n ih =>
    rw [writeRoundKeys_succ, ih]
    rfl

@[simp] theorem writeRoundKeys_keyr (s : State) (n : Nat) : (writeRoundKeys s n).keyr = s.keyr := by
  rw [writeRoundKeys_frame]

/-- After the first `n` entry writes, the entries below `n` hold the round keys and the others what they held. -/
theorem writeRoundKeys_rkt_getElem (s : State) (n r : Nat) (hr : r < 11) :
    (writeRoundKeys s n).rkt[r] = if r < n then roundKeyOf s.keyr r else s.rkt[r] := by
  induction n with
  | zero => rfl
  | succ n ih =>
    simp only [writeRoundKeys_succ, memWriteRkt, Vector.getElem_setIfInBounds, ih, writeRoundKeys_keyr]
    by_cases h : n = r
    · simp [h]
    · have hlt : r < n + 1 ↔ r < n := by omega
      simp [h, hlt]

/-- The eleven entry writes leave the expanded key in the table. -/
theorem writeRoundKeys_eleven (s : State) : writeRoundKeys s 11 = { s with rkt := expand s.keyr } := by
  have hrkt : (writeRoundKeys s 11).rkt = expand s.keyr := by
    ext r hr : 1
    rw [writeRoundKeys_rkt_getElem s 11 r hr, if_pos hr, expand_getElem s.keyr r hr]
  rw [writeRoundKeys_frame, hrkt]

/-! ### The obligation of the family -/

/-- Settles O42: the byte view entry by entry, and KEYEXP's load as the run of the eleven entry writes. -/
theorem tableMemoryIsByteAddressed : Obligations.TableMemoryIsByteAddressed := by
  unfold Obligations.TableMemoryIsByteAddressed
  refine ⟨fun s r k hr hk => readByte_rkt_of_lt s hr hk, fun s a ha => readByte_rkt_of_ge s ha,
    fun s r hr => memRead_eq_some fun k hk => readByte_rkt_of_lt s hr hk,
    fun s r hr => memRead_eq_none (k := 0) (by omega) (readByte_rkt_of_ge s (by omega)), fun s => ?_⟩
  have hwrites : (List.range 11).foldl (fun s r => memWriteRkt s r (roundKeyOf s.keyr r)) s =
      { s with rkt := expand s.keyr } := writeRoundKeys_eleven s
  rw [hwrites, exec_eq]
  rfl

end Sys2Proof.Machine
end

section
/-! SUPPORT. The family 30_encoding: the command word. First the fields of a word, then the decoder by its three outcomes, the
encoder, the bits a row looks at, and what the completion takes from the word. -/

namespace Sys2Proof

open Machine

/-! ### The fields of a word (30 R81) -/

section
variable (op : BitVec 5) (rnd : BitVec 4) (a b : Byte)

/-- The operand fields of a word of format `C` are the operands it was put together from. -/
theorem fields_formatC :
    fieldRnd (formatC op rnd a b) = rnd ∧ fieldA (formatC op rnd a b) = a ∧ fieldB (formatC op rnd a b) = b := by
  delta fieldRnd fieldA fieldB formatC
  refine ⟨?_, ?_, ?_⟩
  all_goals
    apply BitVec.eq_of_getLsbD_eq
    intro i hi
    simp only [BitVec.getLsbD_extractLsb', BitVec.getLsbD_append]
    interval_cases i <;> simp

@[simp] theorem fieldRnd_formatC : fieldRnd (formatC op rnd a b) = rnd := (fields_formatC op rnd a b).1
@[simp] theorem fieldA_formatC : fieldA (formatC op rnd a b) = a := (fields_formatC op rnd a b).2.1
@[simp] theorem fieldB_formatC : fieldB (formatC op rnd a b) = b := (fields_formatC op rnd a b).2.2

end

/-- The six fields are the whole word. -/
theorem append_fields (w : CmdWord) :
    fieldB w ++ fieldA w ++ fieldRsv1 w ++ fieldRnd w ++ fieldRsv0 w ++ fieldOp w = w := by
  delta fieldB fieldA fieldRsv1 fieldRnd fieldRsv0 fieldOp
  apply BitVec.eq_of_getLsbD_eq
  intro i hi
  simp only [BitVec.getLsbD_append, BitVec.getLsbD_extractLsb']
  interval_cases i <;> simp

/-- A word with both reserved fields 0 is the word of format `C` with its fields. -/
theorem formatC_fields {w : CmdWord} (h : ¬ reservedSet w) :
    formatC (fieldOp w) (fieldRnd w) (fieldA w) (fieldB w) = w := by
  obtain ⟨h0, h1⟩ : fieldRsv0 w = 0#3 ∧ fieldRsv1 w = 0#4 :=
    (not_or.mp h).imp of_not_not of_not_not
  conv_rhs => rw [← append_fields w, h0, h1]
  rfl

/-! ### A row's match and mask (30 R84) -/

/-- A mask with ones in a field keeps the field. -/
theorem extractLsb'_and_of_allOnes {w m : CmdWord} {start len : Nat}
    (h : m.extractLsb' start len = BitVec.allOnes len) : (w &&& m).extractLsb' start len = w.extractLsb' start len := by
  rw [BitVec.extractLsb'_and, h, BitVec.and_allOnes]

theorem fieldOp_and_rowMask (w : CmdWord) : fieldOp (w &&& 0x0000F0FF) = fieldOp w :=
  extractLsb'_and_of_allOnes rfl

theorem reservedSet_and_rowMask (w : CmdWord) : reservedSet (w &&& 0x0000F0FF) ↔ reservedSet w := by
  have h0 : fieldRsv0 (w &&& 0x0000F0FF) = fieldRsv0 w := extractLsb'_and_of_allOnes rfl
  have h1 : fieldRsv1 (w &&& 0x0000F0FF) = fieldRsv1 w := extractLsb'_and_of_allOnes rfl
  show fieldRsv0 _ ≠ _ ∨ fieldRsv1 _ ≠ _ ↔ fieldRsv0 w ≠ _ ∨ fieldRsv1 w ≠ _
  rw [h0, h1]

/-- A row's match is its opcode with both reserved fields 0. -/
theorem fieldOp_match (op : BitVec 5) : fieldOp (op.setWidth 32) = op ∧ ¬ reservedSet (op.setWidth 32) := by
  revert op
  decide

/-- A word that matches a row has the row's opcode and both reserved fields 0. -/
theorem fieldOp_of_match {w : CmdWord} {op : BitVec 5} (h : w &&& 0x0000F0FF = op.setWidth 32) :
    fieldOp w = op ∧ ¬ reservedSet w := by
  rw [← fieldOp_and_rowMask w, ← reservedSet_and_rowMask w, h]
  exact fieldOp_match op

/-! ### The opcode map and the decoder (30 R84, R85) -/

/-- The command of the same row of the opcode map, with the operands that stand in the fields of `w`. -/
def Instr.withFields (i : Instr) (w : CmdWord) : Instr :=
  match i with
  | .gfmul _ _ => .gfmul (fieldA w) (fieldB w)
  | .gfinv _ => .gfinv (fieldA w)
  | .sbox _ => .sbox (fieldA w)
  | .invsbox _ => .invsbox (fieldA w)
  | .rkrd _ => .rkrd (fieldRnd w)
  | .ark _ => .ark (fieldRnd w)
  | .nop | .keyexp | .enc | .dec | .ldst | .subb | .invsubb | .shr | .invshr | .mixc | .invmixc => i

/-- The opcode map at a row: the command of the row, with its operands from the word. -/
theorem decodeOp_of_row {w : CmdWord} {i : Instr} (hop : fieldOp w = i.opcode) : decodeOp w = some (i.withFields w) := by
  delta decodeOp
  rw [hop]
  cases i <;> rfl

/-- The opcode map gives a command only at its row, with the operands that stand in the word. -/
theorem row_of_decodeOp {w : CmdWord} {i : Instr} (h : decodeOp w = some i) :
    fieldOp w = i.opcode ∧ i.withFields w = i := by
  unfold decodeOp at h
  split at h <;> cases h
  all_goals exact ⟨BitVec.eq_of_toNat_eq ‹_›, rfl⟩

/-- Only opcodes from 0x11 on have no row. -/
theorem le_fieldOp_of_decodeOp_none {w : CmdWord} (h : decodeOp w = none) : 0x11 ≤ (fieldOp w).toNat := by
  by_contra hlt
  rw [Nat.not_le] at hlt
  delta decodeOp at h
  interval_cases (fieldOp w).toNat <;> cases h

/-- The opcodes of the 17 commands are the ones below 0x11. -/
theorem Instr.opcode_toNat_lt (i : Instr) : i.opcode.toNat < 0x11 := by
  cases i <;> exact of_decide_eq_true rfl

/-- Decoding by its cases: no row, a row with a reserved field set, or a command of the row with its operands from the word. -/
theorem decode_cases (w : CmdWord) :
    (0x11 ≤ (fieldOp w).toNat ∧ decode w = .error .illegal) ∨
    ((fieldOp w).toNat < 0x11 ∧ reservedSet w ∧ decode w = .error .reserved) ∨
    (∃ i : Instr, fieldOp w = i.opcode ∧ i.withFields w = i ∧ ¬ reservedSet w ∧ decode w = .ok i) := by
  cases h : decodeOp w with
  | none => exact .inl ⟨le_fieldOp_of_decodeOp_none h, by simp [decode, h]⟩
  | some i =>
    obtain ⟨hop, hf⟩ := row_of_decodeOp h
    by_cases hr : reservedSet w
    · refine .inr (.inl ⟨hop ▸ i.opcode_toNat_lt, hr, ?_⟩)
      simpa [decode, h, fieldRsv0, fieldRsv1, or_iff_not_imp_left] using hr
    · exact .inr (.inr ⟨i, hop, hf, hr, by simpa [decode, h, fieldRsv0, fieldRsv1] using hr⟩)

/-- A word whose opcode has no row is illegal, whatever its reserved fields hold. -/
theorem decode_of_illegal {w : CmdWord} (h : 0x11 ≤ (fieldOp w).toNat) : decode w = .error .illegal := by
  rcases decode_cases w with ⟨_, hd⟩ | ⟨hop, _⟩ | ⟨i, hop, _⟩
  · exact hd
  · omega
  · exact absurd (hop ▸ h) (Nat.not_le.mpr i.opcode_toNat_lt)

/-- A word with a row and a nonzero reserved field is refused as reserved. -/
theorem decode_of_reserved {w : CmdWord} (hop : (fieldOp w).toNat < 0x11) (hr : reservedSet w) :
    decode w = .error .reserved := by
  rcases decode_cases w with ⟨h, _⟩ | ⟨_, _, hd⟩ | ⟨i, _, _, h, _⟩
  · omega
  · exact hd
  · exact absurd hr h

/-- A word with the opcode of a command and both reserved fields 0 decodes to it, with the operands in the word. -/
theorem decode_of_row {w : CmdWord} {i : Instr} (hop : fieldOp w = i.opcode) (hr : ¬ reservedSet w) :
    decode w = .ok (i.withFields w) := by
  rcases decode_cases w with ⟨h, _⟩ | ⟨_, h, _⟩ | ⟨j, hj, hf, _, hd⟩
  · exact absurd (hop ▸ h) (Nat.not_le.mpr i.opcode_toNat_lt)
  · exact absurd h hr
  · have hsame : some (i.withFields w) = some j := by rw [← decodeOp_of_row hop, decodeOp_of_row hj, hf]
    rw [hd, Option.some.inj hsame]

/-- A word that matches a command's row decodes to the command of that row with the operands in the word. -/
theorem decode_of_match (i : Instr) {w : CmdWord} (h : w &&& 0x0000F0FF = i.opcode.setWidth 32) :
    decode w = .ok (i.withFields w) := by
  obtain ⟨hop, hr⟩ := fieldOp_of_match h
  exact decode_of_row hop hr

/-! ### The encoder (30 R81, R87) -/

/-- The word of a command matches the row of its opcode. -/
theorem encode_match (i : Instr) : encode i &&& 0x0000F0FF = i.opcode.setWidth 32 := by
  cases i <;> exact Laws.EncodingShape.formatC_matches ..

/-- The operands of a command stand in their fields of its word. -/
@[simp] theorem Instr.withFields_encode (i : Instr) : i.withFields (encode i) = i := by
  cases i
  case gfmul a b => exact congrArg₂ Instr.gfmul (fieldA_formatC ..) (fieldB_formatC ..)
  case gfinv a => exact congrArg Instr.gfinv (fieldA_formatC ..)
  case sbox a => exact congrArg Instr.sbox (fieldA_formatC ..)
  case invsbox a => exact congrArg Instr.invsbox (fieldA_formatC ..)
  case rkrd rnd => exact congrArg Instr.rkrd (fieldRnd_formatC ..)
  case ark rnd => exact congrArg Instr.ark (fieldRnd_formatC ..)
  all_goals rfl

/-- The round trip: a command's word matches its row, and the fields of the word are the command's operands. -/
@[simp] theorem decode_encode (i : Instr) : decode (encode i) = .ok i := by
  rw [decode_of_match i (encode_match i), i.withFields_encode]

/-- Two commands with one word are one command. -/
theorem encode_injective : Function.Injective encode := fun i j h =>
  Except.ok.inj ((decode_encode i).symm.trans (h ▸ decode_encode j))

/-! ### The bits a row looks at (30 R83, R84) -/

/-- The bits of `OP`, of both reserved fields, and of those of the fields `RND`, `A` and `B` that are kept. -/
def fieldMask (keepRnd keepA keepB : Bool) : CmdWord :=
  (bif keepB then BitVec.allOnes 8 else 0) ++ (bif keepA then BitVec.allOnes 8 else 0) ++ BitVec.allOnes 4 ++
    (bif keepRnd then BitVec.allOnes 4 else 0) ++ BitVec.allOnes 3 ++ BitVec.allOnes 5

theorem and_allOnes_or_zero {n : Nat} (x : BitVec n) (keep : Bool) :
    x &&& (bif keep then BitVec.allOnes n else 0) = bif keep then x else 0 := by
  cases keep
  · exact BitVec.and_zero
  · exact BitVec.and_allOnes

/-- A field mask keeps the fields it names and clears the others. -/
theorem formatC_and_fieldMask (op : BitVec 5) (rnd : BitVec 4) (a b : Byte) (keepRnd keepA keepB : Bool) :
    formatC op rnd a b &&& fieldMask keepRnd keepA keepB =
      formatC op (bif keepRnd then rnd else 0) (bif keepA then a else 0) (bif keepB then b else 0) := by
  refine BitVec.and_append.trans ?_
  simp only [BitVec.and_append, and_allOnes_or_zero, BitVec.and_allOnes, formatC]

/-- The command of a word's row has the word's used bits for its encoding. -/
theorem encode_withFields {w : CmdWord} {i : Instr} (hop : fieldOp w = i.opcode) (hr : ¬ reservedSet w) :
    encode (i.withFields w) = w &&& usedBits i.opcode := by
  conv_rhs => rw [← formatC_fields hr, hop]
  cases i
  case gfmul => exact (formatC_and_fieldMask _ _ _ _ false true true).symm
  case gfinv | sbox | invsbox => exact (formatC_and_fieldMask _ _ _ _ false true false).symm
  case rkrd | ark => exact (formatC_and_fieldMask _ _ _ _ true false false).symm
  all_goals exact (formatC_and_fieldMask _ _ _ _ false false false).symm

/-- A decoded command has its operands in the word's fields, and its encoding keeps those alone. -/
theorem encode_of_decode {w : CmdWord} {i : Instr} (h : decode w = .ok i) : encode i = w &&& usedBits i.opcode := by
  rcases decode_cases w with ⟨_, hd⟩ | ⟨_, _, hd⟩ | ⟨j, hop, hf, hr, hd⟩ <;> cases hd.symm.trans h
  rw [← encode_withFields hop hr, hf]

/-- Every opcode looks at its own bits and at both reserved fields. -/
theorem usedBits_and_rowMask (op : BitVec 5) : usedBits op &&& 0x0000F0FF = 0x0000F0FF := by
  revert op
  decide

/-- Two words that agree on the bits their opcode looks at decode alike. -/
theorem decode_congr {w w' : CmdWord} (h : w &&& usedBits (fieldOp w) = w' &&& usedBits (fieldOp w)) :
    decode w' = decode w := by
  have hrow : w' &&& 0x0000F0FF = w &&& 0x0000F0FF := by
    rw [← usedBits_and_rowMask (fieldOp w), ← BitVec.and_assoc, ← h, BitVec.and_assoc]
  have hop : fieldOp w' = fieldOp w := by rw [← fieldOp_and_rowMask w', hrow, fieldOp_and_rowMask]
  have hres : reservedSet w' ↔ reservedSet w := by rw [← reservedSet_and_rowMask w', hrow, reservedSet_and_rowMask]
  rcases decode_cases w with ⟨hill, hd⟩ | ⟨hleg, hr, hd⟩ | ⟨i, hiop, -, hr, hd⟩
  · rw [hd, decode_of_illegal (hop ▸ hill)]
  · rw [hd, decode_of_reserved (hop ▸ hleg) (hres.mpr hr)]
  · have hrow' : decode w' = .ok (i.withFields w') := decode_of_row (hop.trans hiop) (mt hres.mp hr)
    have henc : encode (i.withFields w') = encode i := by
      rw [encode_withFields (hop.trans hiop) (mt hres.mp hr), encode_of_decode hd, ← hiop, h]
    rw [hrow', encode_injective henc, hd]

/-! ### What completion takes from the word (30 R83, R85) -/

/-- A command's completion keeps `CMDR` and does not read it. -/
theorem exec_setCmdr (i : Instr) (s : State) (w : CmdWord) :
    ∃ t, exec i s = .next t ∧ exec i { s with cmdr := w } = .next { t with cmdr := w } := by
  have herr : commandError i { s with cmdr := w } = commandError i s := by cases i <;> rfl
  have hwrites : commandWrites i { s with cmdr := w } = { commandWrites i s with cmdr := w } := by cases i <;> rfl
  simp only [exec_eq, herr, hwrites]
  cases commandError i s <;> exact ⟨_, rfl, rfl⟩

/-- A word's completion reads what the word decodes to, and no more of it. -/
theorem completeWord_setCmdr {s : State} {w : CmdWord} (h : decode w = decode s.cmdr) :
    ∃ t, completeWord s = .next t ∧ completeWord { s with cmdr := w } = .next { t with cmdr := w } := by
  simp only [completeWord, h]
  cases decode s.cmdr with
  | error e => exact ⟨_, rfl, rfl⟩
  | ok i => exact exec_setCmdr i s w

/-! ### The error procedure (30 R85) -/

/-- The code an operand of ENC or DEC ends the command with, 0 for none. -/
theorem operandError_tableOperand (s : State) :
    (operandError (tableOperand s)).getD 0 = if s.keyValid = false then 4 else 0 := by
  rcases tableOperand_cases s with ⟨hk, h⟩ | ⟨hk, h⟩ <;> simp [h, hk, operandError, errNokey]

/-- The code the operand of RKRD or ARK ends the command with, 0 for none. -/
theorem operandError_roundKeyOperand (s : State) (rnd : BitVec 4) :
    (operandError (roundKeyOperand s rnd)).getD 0 = if rnd.toNat > 10 then 3 else if s.keyValid = false then 4 else 0 := by
  rcases roundKeyOperand_cases s rnd with ⟨hr, h⟩ | ⟨hr, hk, h⟩ | ⟨hr, hk, h⟩
  · simp [h, hr, operandError, errRnd]
  · simp [h, hk, Nat.not_lt.mpr hr, operandError, errNokey]
  · simp [h, hk, Nat.not_lt.mpr (Nat.le_of_lt_succ hr), operandError]

/-- The last two checks, on the fields of a word of the command's row. -/
theorem errorCodeOf_of_row {i : Instr} {s : State} {w : CmdWord} (hop : fieldOp w = i.opcode) (hr : ¬ reservedSet w) :
    errorCodeOf w s.keyValid = (commandError (i.withFields w) s).getD 0 := by
  have hop' : w.extractLsb' 0 5 = i.opcode := hop
  have hrnd : w.extractLsb' 8 4 = fieldRnd w := rfl
  simp only [errorCodeOf, hop', hrnd, hr, if_false]
  cases i
  case rkrd | ark =>
    simp only [Instr.withFields, commandError, operandError_roundKeyOperand]
    simp [Instr.opcode]
  case enc | dec =>
    simp only [Instr.withFields, commandError, operandError_tableOperand]
    simp [Instr.opcode]
  all_goals rfl

/-- The procedure names the error a captured word ends with, and 0 where it ends with none. -/
theorem errorCodeOf_eq (s : State) : errorCodeOf s.cmdr s.keyValid = (wordError s).getD 0 := by
  rcases decode_cases s.cmdr with ⟨hop, hd⟩ | ⟨hop, hr, hd⟩ | ⟨i, hop, hf, hr, hd⟩
  · simp only [wordError, hd]
    exact if_pos hop
  · simp only [wordError, hd]
    exact (if_neg (Nat.not_le.mpr hop)).trans (if_pos hr)
  · simp only [wordError, hd]
    rw [errorCodeOf_of_row hop hr, hf]

/-- No error has the code of success. -/
theorem wordError_ne_zero (s : State) : wordError s ≠ some 0 := by
  intro h
  unfold wordError at h
  cases hd : decode s.cmdr with
  | error e => cases e <;> simp [hd, decodeErrorCode, errIllegal, errRsvd] at h
  | ok i =>
    simp only [hd] at h
    rcases commandError_code h with h | h <;> simp [errRnd, errNokey] at h

/-! ### The obligations of the family -/

/-- Settles O1, by the round trip. -/
theorem decodeInvertsEncode : Obligations.DecodeInvertsEncode := decode_encode

/-- Settles O2: each row is `decode_of_match` at a command of the row; its operands are read from the word. -/
theorem decodeFollowsOpcodeMap : Obligations.DecodeFollowsOpcodeMap := by
  unfold Obligations.DecodeFollowsOpcodeMap
  intro w
  exact ⟨decode_of_match .nop, decode_of_match (.gfmul 0 0), decode_of_match (.gfinv 0), decode_of_match (.sbox 0),
    decode_of_match (.invsbox 0), decode_of_match .keyexp, decode_of_match (.rkrd 0), decode_of_match .enc,
    decode_of_match .dec, decode_of_match .ldst, decode_of_match .subb, decode_of_match .invsubb, decode_of_match .shr,
    decode_of_match .invshr, decode_of_match .mixc, decode_of_match .invmixc, decode_of_match (.ark 0),
    decode_of_illegal, decode_of_reserved⟩

/-- Settles O3: on a word with both reserved fields 0 the encoding is the word under its used bits. -/
theorem decodedWordIsItsEncoding : Obligations.DecodedWordIsItsEncoding := fun _ _ => encode_of_decode

/-- Settles O4: completion reads the decoded command, which the used bits determine; a reserved field set is an error. -/
theorem unusedFieldsAreIgnored : Obligations.UnusedFieldsAreIgnored := by
  unfold Obligations.UnusedFieldsAreIgnored
  refine ⟨fun s w w' h => completeWord_setCmdr (s := { s with cmdr := w }) (decode_congr h), fun s hop hr => ?_⟩
  rw [completeWord, decode_of_reserved hop hr]
  rfl

/-- Settles O39: the code of the procedure is the error of the word, on which completion turns. -/
theorem errorProcedureIsFollowed : Obligations.ErrorProcedureIsFollowed := by
  unfold Obligations.ErrorProcedureIsFollowed
  intro s
  rw [errorCodeOf_eq]
  cases he : wordError s with
  | some e =>
    have hne : e ≠ 0 := fun h0 => wordError_ne_zero s (h0 ▸ he)
    refine ⟨fun _ => ?_, fun h0 => absurd h0 hne⟩
    rw [completeWord_eq, he]
    rfl
  | none =>
    refine ⟨fun h0 => absurd rfl h0, fun _ => ?_⟩
    have hdone : completeWord s = .next ((wordWrites s).endWith errNone) := by rw [completeWord_eq, he]
    cases hd : decode s.cmdr with
    | error e =>
      rw [wordError, hd] at he
      cases he
    | ok i =>
      have hexec : completeWord s = exec i s := by rw [completeWord, hd]
      exact ⟨i, _, rfl, hdone, hexec ▸ hdone, rfl, rfl, rfl, rfl⟩

/-- Settles O5: the encodings are computed; the commands among the decodings come back by the round trip. -/
theorem workedEncodings : Obligations.WorkedEncodings := by
  unfold Obligations.WorkedEncodings
  exact ⟨rfl, rfl, rfl, rfl, rfl, rfl, rfl, rfl, rfl, rfl, rfl, rfl, rfl, rfl, rfl, rfl, rfl, rfl,
    decode_encode (.gfmul 0x57 0x83), decode_encode (.sbox 0x53), decode_encode (.rkrd 10),
    decode_encode .ldst, decode_encode .enc, decode_of_illegal (by decide),
    decode_of_reserved (by decide) (by decide)⟩

end Sys2Proof
end

section
/-! SUPPORT. The family 40_field_arithmetic: GF(2^8) and the commands on it. The product is linear in both operands, so its
laws need only be seen on the eight powers of `x`. Then the inverse, the powers, the two hidden sequencers, GFMUL and GFINV. -/

namespace Sys2Proof.Machine

/-! ### Bytes as sums of powers of `x` (00 R10) -/

/-- The step of `byte_xor_induction`: bytes whose bits from `n` on are 0, by their number `n` of low bits. -/
theorem byte_xor_induction_low {P : Byte → Prop} (pow : ∀ i, i < 8 → P (1#8 <<< i))
    (xor : ∀ a b, P a → P b → P (a ^^^ b)) (n : Nat) (hn : n ≤ 8) (a : Byte)
    (h : ∀ i, n ≤ i → a.getLsbD i = false) : P a := by
  induction n generalizing a with
  | zero =>
    have ha : a = 0#8 := BitVec.eq_of_getLsbD_eq fun i _ => by simp [h]
    have hzero : P 0#8 := BitVec.xor_self ▸ xor _ _ (pow 0 (by omega)) (pow 0 (by omega))
    rwa [ha]
  | succ n ih =>
    cases hb : a.getLsbD n with
    | false => exact ih (by omega) a fun i hi => (Nat.eq_or_lt_of_le hi).elim (fun he => he ▸ hb) (h i)
    | true =>
      have ha : a = (a ^^^ 1#8 <<< n) ^^^ 1#8 <<< n := by
        rw [BitVec.xor_assoc, BitVec.xor_self, BitVec.xor_zero]
      rw [ha]
      refine xor _ _ (ih (by omega) _ fun i hi => ?_) (pow n hn)
      rcases Nat.eq_or_lt_of_le hi with rfl | hlt
      · have h8 : n < 8 := hn
        simp [hb, h8]
      · have hs : i - n ≠ 0 := by omega
        simp [h i hlt, hs]

/-- What holds of the powers `x^0` to `x^7` and of every sum holds of every byte. -/
theorem byte_xor_induction {P : Byte → Prop} (pow : ∀ i, i < 8 → P (1#8 <<< i))
    (xor : ∀ a b, P a → P b → P (a ^^^ b)) (a : Byte) : P a :=
  byte_xor_induction_low pow xor 8 le_rfl a fun i hi => BitVec.getLsbD_of_ge a i hi

/-! ### The laws of the product (40 R111) -/

theorem xor_xor_xor_comm {n : Nat} (p q r s : BitVec n) : p ^^^ q ^^^ (r ^^^ s) = p ^^^ r ^^^ (q ^^^ s) := by
  rw [BitVec.xor_assoc, BitVec.xor_assoc, ← BitVec.xor_assoc q, BitVec.xor_comm q r, BitVec.xor_assoc]

/-- `f` respects sums. -/
def IsLinear {n m : Nat} (f : BitVec n → BitVec m) : Prop := ∀ p p', f (p ^^^ p') = f p ^^^ f p'

theorem IsLinear.xor {n m : Nat} {f g : BitVec n → BitVec m} (hf : IsLinear f) (hg : IsLinear g) :
    IsLinear fun p => f p ^^^ g p := fun p p' =>
  (congrArg₂ (· ^^^ ·) (hf p p') (hg p p')).trans (xor_xor_xor_comm ..)

theorem carrylessProduct_pow (a : Byte) (i : Nat) (hi : i < 8) : carrylessProduct a (1#8 <<< i) = a.setWidth 16 <<< i := by
  interval_cases i <;> exact BitVec.zero_xor

theorem carrylessProduct_xor_left (a b c : Byte) :
    carrylessProduct (a ^^^ b) c = carrylessProduct a c ^^^ carrylessProduct b c := by
  induction c using byte_xor_induction with
  | pow i hi => simp only [carrylessProduct_pow _ i hi, BitVec.setWidth_xor, BitVec.shiftLeft_xor_distrib]
  | xor c d hc hd => rw [carrylessProduct_xor, hc, hd, xor_xor_xor_comm, ← carrylessProduct_xor, ← carrylessProduct_xor]

theorem gmul_eq (a b : Byte) : gmul a b = (reduceProduct (carrylessProduct a b)).setWidth 8 := rfl

theorem gmul_xor_right (a b c : Byte) : gmul a (b ^^^ c) = gmul a b ^^^ gmul a c := by
  simp only [gmul_eq, carrylessProduct_xor, reduceProduct_xor, BitVec.setWidth_xor]

theorem gmul_xor_left (a b c : Byte) : gmul (a ^^^ b) c = gmul a c ^^^ gmul b c := by
  simp only [gmul_eq, carrylessProduct_xor_left, reduceProduct_xor, BitVec.setWidth_xor]

theorem carrylessProduct_pow_pow {i j : Nat} (hi : i < 8) (hj : j < 8) :
    carrylessProduct (1#8 <<< i) (1#8 <<< j) = 1#16 <<< (i + j) := by
  have hwide : (1#8 <<< i).setWidth 16 = 1#16 <<< i := by interval_cases i <;> rfl
  rw [carrylessProduct_pow _ j hj, hwide, BitVec.shiftLeft_add]

theorem gmul_pow_pow {i j : Nat} (hi : i < 8) (hj : j < 8) :
    gmul (1#8 <<< i) (1#8 <<< j) = (reduceProduct (1#16 <<< (i + j))).setWidth 8 := by
  rw [gmul_eq, carrylessProduct_pow_pow hi hj]

theorem gmul_comm (a b : Byte) : gmul a b = gmul b a := by
  induction a using byte_xor_induction with
  | xor a a' ha ha' => rw [gmul_xor_left, gmul_xor_right, ha, ha']
  | pow i hi =>
    induction b using byte_xor_induction with
    | xor b b' hb hb' => rw [gmul_xor_left, gmul_xor_right, hb, hb']
    | pow j hj => rw [gmul_pow_pow hi hj, gmul_pow_pow hj hi, Nat.add_comm]

theorem gmul_zero (a : Byte) : gmul a 0 = 0 := by
  have h := gmul_xor_right a 0 0
  rwa [BitVec.xor_self, BitVec.xor_self] at h

theorem gmul_one (a : Byte) : gmul a 1 = a := by
  induction a using byte_xor_induction with
  | xor a b ha hb => rw [gmul_xor_left, ha, hb]
  | pow i hi => interval_cases i <;> rfl

theorem zero_gmul (a : Byte) : gmul 0 a = 0 := by rw [gmul_comm, gmul_zero]

theorem one_gmul (a : Byte) : gmul 1 a = a := by rw [gmul_comm, gmul_one]

/-! ### Multiplication by `x` (40 R114), and associativity by way of it -/

theorem xtime_eq (a : Byte) : xtime a = a <<< 1 ^^^ (if a.getLsbD 7 then 0x1B else 0x00) := rfl

theorem xtime_linear : IsLinear xtime :=
  have hcarry : IsLinear fun a : Byte => if a.getLsbD 7 then (0x1B : Byte) else 0x00 := fun a b => by
    dsimp only
    rw [BitVec.getLsbD_xor]
    cases a.getLsbD 7 <;> cases b.getLsbD 7 <;> rfl
  IsLinear.xor (fun _ _ => BitVec.shiftLeft_xor_distrib ..) hcarry

/-- Below degree 7 nothing is reduced. -/
theorem pow_succ_eq_xtime : ∀ n, n < 7 → 1#8 <<< (n + 1) = xtime (1#8 <<< n) := by decide

theorem reduceProduct_pow_succ : ∀ n, n < 14 →
    (reduceProduct (1#16 <<< (n + 1))).setWidth 8 = xtime ((reduceProduct (1#16 <<< n)).setWidth 8) := by decide

theorem gmul_pow_xtime_pow {i j : Nat} (hi : i < 8) (hj : j < 8) :
    gmul (1#8 <<< i) (xtime (1#8 <<< j)) = xtime (gmul (1#8 <<< i) (1#8 <<< j)) := by
  rcases Nat.lt_or_eq_of_le (Nat.le_of_lt_succ hj) with hlt | rfl
  · rw [← pow_succ_eq_xtime j hlt, gmul_pow_pow hi (Nat.succ_lt_succ hlt), gmul_pow_pow hi hj]
    exact reduceProduct_pow_succ (i + j) (by omega)
  · interval_cases i <;> rfl

theorem gmul_xtime (a b : Byte) : gmul a (xtime b) = xtime (gmul a b) := by
  induction a using byte_xor_induction with
  | xor a a' ha ha' => rw [gmul_xor_left, ha, ha', gmul_xor_left, xtime_linear]
  | pow i hi =>
    induction b using byte_xor_induction with
    | xor b b' hb hb' => rw [gmul_xor_right, xtime_linear, xtime_linear, gmul_xor_right, hb, hb']
    | pow j hj => exact gmul_pow_xtime_pow hi hj

theorem xtime_eq_gmul (a : Byte) : xtime a = gmul a 2 := by
  have h : gmul a (xtime 1) = xtime a := by rw [gmul_xtime, gmul_one]
  exact h.symm

theorem toNat_xtime (a : Byte) :
    (xtime a).toNat = ((a.toNat <<< 1) &&& 0xFF) ^^^ (if a.getLsbD 7 then 0x1B else 0x00) := by
  rw [xtime_eq, BitVec.toNat_xor, BitVec.toNat_shiftLeft, ← Nat.and_two_pow_sub_one_eq_mod]
  cases a.getLsbD 7 <;> rfl

theorem gmul_assoc_pow (a b : Byte) (n : Nat) (hn : n < 8) :
    gmul (gmul a b) (1#8 <<< n) = gmul a (gmul b (1#8 <<< n)) := by
  induction n with
  | zero => exact (gmul_one _).trans (congrArg (gmul a) (gmul_one b)).symm
  | succ n ih => rw [pow_succ_eq_xtime n (by omega), gmul_xtime, gmul_xtime, gmul_xtime, ih (by omega)]

theorem gmul_assoc (a b c : Byte) : gmul (gmul a b) c = gmul a (gmul b c) := by
  induction c using byte_xor_induction with
  | pow i hi => exact gmul_assoc_pow a b i hi
  | xor c c' hc hc' => simp only [gmul_xor_right, hc, hc']

/-! ### The product as a remainder modulo 0x11B (40 R110) -/

theorem foldl_xor_xor (f g : Nat → Bool) (is : List Nat) (x y : Bool) :
    is.foldl (fun acc i => acc ^^ (f i ^^ g i)) (x ^^ y) =
      (is.foldl (fun acc i => acc ^^ f i) x ^^ is.foldl (fun acc i => acc ^^ g i) y) := by
  induction is generalizing x y with
  | nil => rfl
  | cons i is ih => simp only [List.foldl_cons, ← ih, Bool.xor_assoc, Bool.xor_left_comm]

theorem foldl_xor_single (f : Nat → Bool) (j n : Nat) (h : ∀ i, i < n → i ≠ j → f i = false) :
    (List.range n).foldl (fun acc i => acc ^^ f i) false = (decide (j < n) && f j) := by
  induction n with
  | zero => rfl
  | succ n ih =>
    rw [List.range_succ, List.foldl_append, ih fun i hi => h i (by omega), List.foldl_cons, List.foldl_nil]
    by_cases hj : n = j
    · simp [hj]
    · have hlt : j < n + 1 ↔ j < n := by omega
      simp [h n (by omega) hj, hlt]

theorem productCoeff_xor_right {n : Nat} (p : Nat → Bool) (q q' : BitVec n) (k : Nat) :
    productCoeff p (q ^^^ q').getLsbD k = (productCoeff p q.getLsbD k ^^ productCoeff p q'.getLsbD k) := by
  simp only [productCoeff, BitVec.getLsbD_xor, Bool.and_xor_distrib_left]
  exact foldl_xor_xor _ _ _ false false

/-- Multiplication by a power of `x` is a shift. -/
theorem productCoeff_pow {w j k : Nat} (p : Byte) (hj : j < w) (hk : k < 16) :
    productCoeff p.getLsbD (1#w <<< j).getLsbD k = (p.setWidth 16 <<< j).getLsbD k := by
  have hpow : ∀ i, (1#w <<< j).getLsbD i = decide (i = j) := by
    intro i
    rw [← BitVec.twoPow_eq, BitVec.getLsbD_twoPow]
    simp [hj, eq_comm]
  rw [productCoeff, foldl_xor_single _ (k - j)]
  · rcases Nat.lt_or_ge k j with hlt | hle
    · have hne : k ≠ j := by omega
      simp only [hpow, Nat.sub_eq_zero_of_le hlt.le, Nat.sub_zero, hne, hlt, BitVec.getLsbD_shiftLeft, decide_false,
        decide_true, Bool.and_false, Bool.false_and, Bool.not_true]
    · have hsub : k - (k - j) = j := by omega
      have hlt : k - j < k + 1 := by omega
      have hlow : k - j < 16 := by omega
      simp only [hpow, hsub, hlt, hlow, hk, Nat.not_lt.mpr hle, BitVec.getLsbD_shiftLeft, BitVec.getLsbD_setWidth,
        decide_false, decide_true, Bool.and_true, Bool.true_and, Bool.not_false]
  · intro i hi hne
    have hne' : k - i ≠ j := by omega
    simp [hpow, hne']

theorem getLsbD_carrylessProduct (a b : Byte) {k : Nat} (hk : k < 16) :
    (carrylessProduct a b).getLsbD k = productCoeff a.getLsbD b.getLsbD k := by
  induction b using byte_xor_induction with
  | pow i hi => rw [carrylessProduct_pow a i hi, productCoeff_pow a hi hk]
  | xor b c hb hc => rw [carrylessProduct_xor, BitVec.getLsbD_xor, hb, hc, productCoeff_xor_right]

/-- The multiple `q·m` of the reduction polynomial. -/
def timesPoly (q : Byte) : BitVec 16 :=
  q.setWidth 16 <<< 8 ^^^ q.setWidth 16 <<< 4 ^^^ q.setWidth 16 <<< 3 ^^^ q.setWidth 16 <<< 1 ^^^ q.setWidth 16 <<< 0

theorem timesPoly_linear : IsLinear timesPoly :=
  have hshift (j : Nat) : IsLinear fun q : Byte => q.setWidth 16 <<< j := fun _ _ => by
    dsimp only
    rw [BitVec.setWidth_xor, BitVec.shiftLeft_xor_distrib]
  ((((hshift 8).xor (hshift 4)).xor (hshift 3)).xor (hshift 1)).xor (hshift 0)

theorem getLsbD_timesPoly (q : Byte) {k : Nat} (hk : k < 16) :
    (timesPoly q).getLsbD k = productCoeff q.getLsbD (0x11B#16).getLsbD k := by
  have hm : 0x11B#16 = 1#16 <<< 8 ^^^ 1#16 <<< 4 ^^^ 1#16 <<< 3 ^^^ 1#16 <<< 1 ^^^ 1#16 <<< 0 := rfl
  rw [hm]
  simp only [timesPoly, BitVec.getLsbD_xor, productCoeff_xor_right]
  rw [productCoeff_pow q (by omega) hk, productCoeff_pow q (by omega) hk, productCoeff_pow q (by omega) hk,
    productCoeff_pow q (by omega) hk, productCoeff_pow q (by omega) hk]

/-- The quotient of a polynomial of degree at most 14 by `m`. -/
def quotient (p : BitVec 16) : Byte := (p >>> 8 ^^^ p >>> 12 ^^^ p >>> 13).setWidth 8

/-- What is left of `p` after the multiple of `m` by its quotient. -/
def remainder (p : BitVec 16) : BitVec 16 := p ^^^ timesPoly (quotient p)

theorem quotient_linear : IsLinear quotient := fun p p' =>
  have hshift (j : Nat) : IsLinear fun p : BitVec 16 => p >>> j := fun _ _ => BitVec.ushiftRight_xor_distrib ..
  (congrArg (BitVec.setWidth 8) (((hshift 8).xor (hshift 12)).xor (hshift 13) p p')).trans BitVec.setWidth_xor

theorem remainder_linear : IsLinear remainder :=
  IsLinear.xor (fun _ _ => rfl) fun p p' => by rw [quotient_linear, timesPoly_linear]

theorem remainder_pow : ∀ n, n < 15 →
    remainder (1#16 <<< n) = ((reduceProduct (1#16 <<< n)).setWidth 8).setWidth 16 := by decide

theorem remainder_carrylessProduct (a b : Byte) : remainder (carrylessProduct a b) = (gmul a b).setWidth 16 := by
  induction a using byte_xor_induction with
  | xor a a' ha ha' => rw [carrylessProduct_xor_left, remainder_linear, ha, ha', gmul_xor_left, BitVec.setWidth_xor]
  | pow i hi =>
    induction b using byte_xor_induction with
    | xor b b' hb hb' => rw [carrylessProduct_xor, remainder_linear, hb, hb', gmul_xor_right, BitVec.setWidth_xor]
    | pow j hj => rw [carrylessProduct_pow_pow hi hj, gmul_pow_pow hi hj, remainder_pow (i + j) (by omega)]

/-- `a·b = q·m + gmul(a, b)`. -/
theorem carrylessProduct_eq (a b : Byte) :
    carrylessProduct a b = timesPoly (quotient (carrylessProduct a b)) ^^^ (gmul a b).setWidth 16 := by
  rw [← remainder_carrylessProduct, remainder, BitVec.xor_comm (carrylessProduct a b), ← BitVec.xor_assoc,
    BitVec.xor_self, BitVec.zero_xor]

/-! ### The table of inverses (40 R120), checked entry by entry over naturals, on which a large check is light -/

/-- The rows of the table of 40 R120. -/
def inverseRows : List Block :=
  [0x00018df6cb527bd1e84f29c0b0e1e5c7, 0x74b4aa4b992b605f583ffdccff40eeb2,
   0x3a6e5af1554da8c9c10a98153044a2c2, 0x2c45926cf3396642f235206f77bb5919,
   0x1dfe37672d31f569a764ab135425e909, 0xed5c05ca4c2487bf183e22f051ec6117,
   0x165eafd349a63643f44791df3393213b, 0x79b7978510b5ba3cb670d006a1fa8182,
   0x837e7f809673be569b9e95d9f702b9a4, 0xde6a326dd88a84722a149f88f9dc899a,
   0xfb7c2ec38fb8654826c8124acee7d262, 0x0ce01fef11757871a58e763dbdbc8657,
   0x0b282fa3dad4e40fa92753041bfcace6, 0x7a07ae63c5dbe2ea948bc4d59df8906b,
   0xb10dd6ebc60ecfad084ed7e35d501eb3, 0x5b2338346846038cdd9c7da0cd1a411c]

/-- Entry `[i][j]` of the table as a natural number. -/
def inverseEntry (i j : Nat) : Nat := (inverseRows.getD i 0).toNat >>> (120 - 8 * j) % 256

theorem toNat_romRead_inverseRows (a : Byte) :
    (romRead inverseRows a).toNat = inverseEntry (a.toNat / 16) (a.toNat % 16) := BitVec.extractLsb'_toNat ..

/-- `carrylessProduct` over naturals, with a factor 0 or 1 in place of each condition. -/
def productNat (a b : Nat) : Nat :=
  b >>> 0 % 2 * (a <<< 0) ^^^ b >>> 1 % 2 * (a <<< 1) ^^^ b >>> 2 % 2 * (a <<< 2) ^^^ b >>> 3 % 2 * (a <<< 3) ^^^
    b >>> 4 % 2 * (a <<< 4) ^^^ b >>> 5 % 2 * (a <<< 5) ^^^ b >>> 6 % 2 * (a <<< 6) ^^^ b >>> 7 % 2 * (a <<< 7)

theorem xor_if_getLsbD (a b : Byte) (p : BitVec 16) (i : Nat) :
    (if b.getLsbD i then p ^^^ a.setWidth 16 <<< i else p) =
      p ^^^ BitVec.ofNat 16 (b.toNat >>> i % 2 * (a.toNat <<< i)) := by
  have hbit : b.toNat >>> i % 2 = (b.getLsbD i).toNat := by
    rw [BitVec.getLsbD, Nat.toNat_testBit, Nat.shiftRight_eq_div_pow]
  have hshift : a.setWidth 16 <<< i = BitVec.ofNat 16 (a.toNat <<< i) := by
    apply BitVec.eq_of_toNat_eq
    simp [Nat.shiftLeft_eq]
  rw [hbit, hshift]
  cases b.getLsbD i <;> simp

theorem carrylessProduct_eq_productNat (a b : Byte) :
    carrylessProduct a b = BitVec.ofNat 16 (productNat a.toNat b.toNat) := by
  simp only [carrylessProduct, xor_if_getLsbD, productNat, BitVec.ofNat_xor]
  simp [List.range_succ]

/-- `quotient` over naturals. -/
def quotientNat (p : Nat) : Nat := (p >>> 8 ^^^ p >>> 12 ^^^ p >>> 13) % 2 ^ 8

/-- `timesPoly` over naturals. -/
def timesPolyNat (q : Nat) : Nat := q <<< 8 ^^^ q <<< 4 ^^^ q <<< 3 ^^^ q <<< 1 ^^^ q <<< 0

/-- `remainder` over naturals. -/
def remainderNat (p : Nat) : Nat := (p ^^^ timesPolyNat (quotientNat p)) % 2 ^ 16

theorem toNat_remainder (p : BitVec 16) : (remainder p).toNat = remainderNat p.toNat := by
  have hp : p.toNat % 2 ^ 16 = p.toNat := Nat.mod_eq_of_lt p.isLt
  have hq : ∀ n, n % 2 ^ 8 % 2 ^ 16 = n % 2 ^ 8 := fun n => by omega
  simp only [remainder, remainderNat, timesPoly, timesPolyNat, quotient, quotientNat, Nat.xor_mod_two_pow, hp, hq,
    BitVec.toNat_xor, BitVec.toNat_shiftLeft, BitVec.toNat_setWidth, BitVec.toNat_ushiftRight]

/-- The one fact about the field that is not linear: each nonzero byte times its entry leaves the remainder 1. -/
theorem remainderNat_inverseEntry : ((List.range 16).all fun i => (List.range 16).all fun j => i + j == 0 ||
    remainderNat (productNat (16 * i + j) (inverseEntry i j) % 2 ^ 16) == 1) = true := by decide

theorem gmul_inverseRows {a : Byte} (ha : a ≠ 0) : gmul a (romRead inverseRows a) = 1 := by
  have hlt := a.isLt
  have hdiv : 16 * (a.toNat / 16) + a.toNat % 16 = a.toNat := Nat.div_add_mod ..
  have hne : a.toNat / 16 + a.toNat % 16 ≠ 0 := fun h0 => ha (BitVec.eq_of_toNat_eq (by simp; omega))
  have hrow := List.all_eq_true.mp remainderNat_inverseEntry (a.toNat / 16) (List.mem_range.mpr (by omega))
  have hentry := List.all_eq_true.mp hrow (a.toNat % 16) (List.mem_range.mpr (by omega))
  rw [Bool.or_eq_true, beq_iff_eq, beq_iff_eq, or_iff_right hne, hdiv, ← toNat_romRead_inverseRows,
    ← BitVec.toNat_ofNat, ← carrylessProduct_eq_productNat, ← toNat_remainder, remainder_carrylessProduct] at hentry
  exact BitVec.eq_of_toNat_eq ((BitVec.toNat_setWidth_of_le (by omega)).symm.trans hentry)

/-! ### The inverse (40 R112) -/

theorem ginv_zero : ginv 0 = 0 := rfl

theorem ne_zero_of_gmul_eq_one {a b : Byte} (h : gmul a b = 1) : a ≠ 0 := by
  rintro rfl
  rw [zero_gmul] at h
  cases h

/-- Where there is an inverse, the search finds one. -/
theorem gmul_ginv_of_gmul_eq_one {a b : Byte} (h : gmul a b = 1) : gmul a (ginv a) = 1 := by
  have hb : b ∈ (List.range 256).map (BitVec.ofNat 8) :=
    List.mem_map.mpr ⟨b.toNat, List.mem_range.mpr b.isLt, by simp⟩
  rw [ginv, if_neg (ne_zero_of_gmul_eq_one h)]
  cases hf : ((List.range 256).map (BitVec.ofNat 8)).find? fun b => gmul a b == 1 with
  | none => exact absurd h (by simpa using List.find?_eq_none.mp hf b hb)
  | some c => simpa using List.find?_some hf

theorem gmul_ginv {a : Byte} (ha : a ≠ 0) : gmul a (ginv a) = 1 := gmul_ginv_of_gmul_eq_one (gmul_inverseRows ha)

theorem gmul_left_cancel {a b c : Byte} (ha : a ≠ 0) (h : gmul a b = gmul a c) : b = c := by
  have hinv : gmul (ginv a) a = 1 := by rw [gmul_comm, gmul_ginv ha]
  calc b = gmul (ginv a) (gmul a b) := by rw [← gmul_assoc, hinv, one_gmul]
    _ = gmul (ginv a) (gmul a c) := by rw [h]
    _ = c := by rw [← gmul_assoc, hinv, one_gmul]

theorem eq_zero_or_eq_zero_of_gmul_eq_zero {a b : Byte} (h : gmul a b = 0) : a = 0 ∨ b = 0 :=
  or_iff_not_imp_left.mpr fun ha => gmul_left_cancel ha (h.trans (gmul_zero a).symm)

theorem gmul_eq_one_iff {a : Byte} (ha : a ≠ 0) (b : Byte) : gmul a b = 1 ↔ b = ginv a :=
  ⟨fun h => gmul_left_cancel ha (h.trans (gmul_ginv ha).symm), fun h => h ▸ gmul_ginv ha⟩

theorem ginv_eq_of_gmul_eq_one {a b : Byte} (h : gmul a b = 1) : ginv a = b :=
  ((gmul_eq_one_iff (ne_zero_of_gmul_eq_one h) b).mp h).symm

theorem ginv_eq_romRead (a : Byte) : ginv a = romRead inverseRows a := by
  by_cases ha : a = 0
  · rw [ha]
    rfl
  · exact ginv_eq_of_gmul_eq_one (gmul_inverseRows ha)

theorem ginv_ginv (a : Byte) : ginv (ginv a) = a := by
  by_cases ha : a = 0
  · rw [ha, ginv_zero, ginv_zero]
  · exact ginv_eq_of_gmul_eq_one (by rw [gmul_comm, gmul_ginv ha])

/-! ### Powers (40 R113) -/

theorem gsquare_eq (a : Byte) : gsquare a = gmul a a := rfl

theorem gpow_succ (a : Byte) (n : Nat) : gpow a (n + 1) = gmul (gpow a n) a := rfl

theorem gpow_one (a : Byte) : gpow a 1 = a := one_gmul a

theorem gpow_add (a : Byte) (m n : Nat) : gpow a (m + n) = gmul (gpow a m) (gpow a n) := by
  induction n with
  | zero => exact (gmul_one _).symm
  | succ n ih => rw [← Nat.add_assoc, gpow_succ, ih, gpow_succ, gmul_assoc]

theorem gsquare_gpow (a : Byte) (n : Nat) : gsquare (gpow a n) = gpow a (2 * n) := by
  rw [gsquare_eq, ← gpow_add, Nat.two_mul]

theorem gpow_mul (a : Byte) (m n : Nat) : gpow a (m * n) = gpow (gpow a m) n := by
  induction n with
  | zero => rfl
  | succ n ih => rw [Nat.mul_succ, gpow_add, ih, gpow_succ]

/-- Squaring is linear: the two mixed products cancel. -/
theorem gsquare_xor (a b : Byte) : gsquare (a ^^^ b) = gsquare a ^^^ gsquare b := by
  simp only [gsquare_eq, gmul_xor_right, gmul_xor_left, gmul_comm b a]
  rw [BitVec.xor_comm (gmul a b) (gmul b b), xor_shared]

theorem gpow_two_pow_xor (a b : Byte) (n : Nat) : gpow (a ^^^ b) (2 ^ n) = gpow a (2 ^ n) ^^^ gpow b (2 ^ n) := by
  induction n with
  | zero => simp only [Nat.pow_zero, gpow_one]
  | succ n ih => simp only [Nat.pow_succ', ← gsquare_gpow, ih, gsquare_xor]

/-- The powers of the byte 2, which is `x`. -/
theorem gpow_x (n : Nat) (hn : n < 8) : gpow 2 n = 1#8 <<< n := by
  induction n with
  | zero => rfl
  | succ n ih => rw [gpow_succ, ih (by omega), ← xtime_eq_gmul, ← pow_succ_eq_xtime n (by omega)]

theorem gpow_double {a b c : Byte} {n : Nat} (h : gpow a n = b) (hb : gsquare b = c) : gpow a (2 * n) = c := by
  rw [← gsquare_gpow, h, hb]

theorem gpow_x_256 : gpow 2 256 = 2 := by
  have h8 : gpow 2 8 = 0x1B := gpow_double (n := 4) (gpow_x 4 (by decide)) (by decide)
  have h16 : gpow 2 16 = 0x5E := gpow_double (n := 8) h8 (by decide)
  have h32 : gpow 2 32 = 0xE4 := gpow_double (n := 16) h16 (by decide)
  have h64 : gpow 2 64 = 0x4D := gpow_double (n := 32) h32 (by decide)
  have h128 : gpow 2 128 = 0xFA := gpow_double (n := 64) h64 (by decide)
  exact gpow_double (n := 128) h128 (by decide)

/-- Taking the power 256 is linear, and each power of `x` is the same power of `x^256`, which is `x`. -/
theorem gpow_256 (a : Byte) : gpow a 256 = a := by
  induction a using byte_xor_induction with
  | xor a b ha hb =>
    have h : gpow (a ^^^ b) 256 = gpow a 256 ^^^ gpow b 256 := gpow_two_pow_xor a b 8
    rw [h, ha, hb]
  | pow i hi => rw [← gpow_x i hi, ← gpow_mul, Nat.mul_comm, gpow_mul, gpow_x_256]

theorem gpow_255 {a : Byte} (ha : a ≠ 0) : gpow a 255 = 1 := by
  have h : gmul (gpow a 255) a = a := (gpow_succ a 255).symm.trans (gpow_256 a)
  exact gmul_left_cancel ha (by rw [gmul_comm, h, gmul_one])

theorem ginv_eq_gpow (a : Byte) : ginv a = gpow a 254 := by
  by_cases ha : a = 0
  · rw [ha]
    exact (gmul_zero _).symm
  · exact ginv_eq_of_gmul_eq_one (by rw [gmul_comm, ← gpow_succ, gpow_255 ha])

theorem gmul_gsquare_gpow (a : Byte) (n : Nat) : gmul (gsquare (gpow a n)) a = gpow a (2 * n + 1) := by
  rw [gsquare_gpow, gpow_succ]

/-! ### The bit-serial multiplier (40 R115) -/

theorem ushiftRight_eq_xtime (b : Byte) (j : Nat) :
    b >>> j = xtime (b >>> (j + 1)) ^^^ (if b.getLsbD j then 1 else 0) := by
  have htop : (b >>> (j + 1)).getLsbD 7 = false := by
    rw [BitVec.getLsbD_ushiftRight]
    exact BitVec.getLsbD_of_ge b _ (by omega)
  rw [xtime_eq, htop]
  apply BitVec.eq_of_getLsbD_eq
  intro i hi
  cases i with
  | zero =>
    rw [BitVec.getLsbD_ushiftRight, BitVec.getLsbD_xor, BitVec.getLsbD_xor, BitVec.getLsbD_shiftLeft, Nat.add_zero]
    cases b.getLsbD j <;> rfl
  | succ i => cases b.getLsbD j <;> simp [hi, Nat.add_right_comm, Nat.add_assoc]

/-- One step of Horner's rule, from the top bits of `b` to one bit more. -/
theorem gmul_ushiftRight (a b : Byte) (j : Nat) :
    gmul a (b >>> j) = xtime (gmul a (b >>> (j + 1))) ^^^ (if b.getLsbD j then a else 0) := by
  rw [ushiftRight_eq_xtime b j, gmul_xor_right, gmul_xtime]
  split <;> simp only [gmul_one, gmul_zero]

theorem toNat_countDown : ∀ g : BitVec 3, (if g = 0 then 0 else g - 1).toNat = g.toNat - 1 := by decide

/-- The multiplier's registers after `n` of the 8 cycles of `gmul a b`: `GACC` holds `a` times the top `n` bits of `b`. -/
def MulAfter (a b : Byte) (n : Nat) (s : State) : Prop :=
  s.ga = a ∧ s.gb = b ∧ s.gstep.toNat = 7 - n ∧ s.gacc = gmul a (b >>> (8 - n))

theorem MulAfter.mulStart (s : State) (a b : Byte) : MulAfter a b 0 (s.mulStart a b) := by
  have hb : b >>> 8 = 0 := BitVec.ushiftRight_eq_zero le_rfl
  exact ⟨rfl, rfl, rfl, by rw [State.mulStart_gacc, hb, gmul_zero]⟩

theorem MulAfter.mulCycle {a b : Byte} {n : Nat} {s : State} (h : MulAfter a b n s) (hn : n < 8) :
    MulAfter a b (n + 1) s.mulCycle := by
  obtain ⟨hga, hgb, hgstep, hgacc⟩ := h
  refine ⟨hga, hgb, ?_, ?_⟩
  · rw [State.mulCycle_gstep, toNat_countDown, hgstep, Nat.sub_sub]
  · have hj : 8 - n = 7 - n + 1 := by omega
    rw [State.mulCycle_gacc, hga, hgb, hgstep, hgacc, hj, ← gmul_ushiftRight, Nat.add_sub_add_right 7 1 n]

theorem MulAfter.waitEdge {a b : Byte} {n : Nat} {s : State} (h : MulAfter a b n s) : MulAfter a b n s.waitEdge := h

theorem MulAfter.gacc_eq_gmul {a b : Byte} {s : State} (h : MulAfter a b 8 s) : s.gacc = gmul a b := by
  obtain ⟨-, -, -, hgacc⟩ := h
  exact hgacc

theorem sequencerSteps_succ (i : Instr) (n : Nat) (s : State) :
    sequencerSteps i (n + 1) s = (seqStep i (sequencerSteps i n s)).waitEdge := rfl

/-- `CNT` counts the steps, up to its 6 bits (44 R213). -/
theorem sequencerSteps_cnt {s : State} (hs : s.cnt = 0) (i : Instr) (n : Nat) :
    (sequencerSteps i n s).cnt = BitVec.ofNat 6 n := by
  induction n with
  | zero => exact hs
  | succ n ih =>
    rw [sequencerSteps_succ, seqStep_frame, State.waitEdge_cnt]
    simp [State.withHiddenOf, ih, BitVec.ofNat_add]

theorem sequencerSteps_cnt_toNat {s : State} (hs : s.cnt = 0) (i : Instr) {n : Nat} (hn : n < 64) :
    (sequencerSteps i n s).cnt.toNat = n := by
  rw [sequencerSteps_cnt hs, BitVec.toNat_ofNat, Nat.mod_eq_of_lt hn]

/-- A command that starts the multiplier at step `k + 1` and runs it for the seven steps after it. -/
theorem mulAfter_sequencerSteps {i : Instr} {a b : Byte} {k : Nat} {s : State}
    (start : seqStep i (sequencerSteps i k s) = ((sequencerSteps i k s).mulStart a b).mulCycle)
    (cycle : ∀ n, 1 ≤ n → n ≤ 7 → seqStep i (sequencerSteps i (k + n) s) = (sequencerSteps i (k + n) s).mulCycle)
    (n : Nat) (hn : n ≤ 7) : MulAfter a b (n + 1) (sequencerSteps i (k + n + 1) s) := by
  induction n with
  | zero =>
    rw [sequencerSteps_succ, Nat.add_zero, start]
    exact ((MulAfter.mulStart _ a b).mulCycle (by omega)).waitEdge
  | succ n ih =>
    rw [sequencerSteps_succ, cycle (n + 1) (by omega) hn]
    exact ((ih (by omega)).mulCycle (by omega)).waitEdge

theorem seqStep_gfmul_first {s : State} (hs : s.cnt.toNat = 0) (a b : Byte) :
    seqStep (.gfmul a b) s = (s.mulStart a b).mulCycle :=
  if_pos (congrArg (· + 1) hs)

theorem seqStep_gfmul_later {s : State} (hpos : 1 ≤ s.cnt.toNat) (hle : s.cnt.toNat ≤ 7) (a b : Byte) :
    seqStep (.gfmul a b) s = s.mulCycle :=
  (if_neg (by omega)).trans (if_pos (by omega))

theorem mulAfter_gfmul {s : State} (hs : s.cnt = 0) (a b : Byte) (n : Nat) (hn : n ≤ 7) :
    MulAfter a b (n + 1) (sequencerSteps (.gfmul a b) (n + 1) s) := by
  have h := mulAfter_sequencerSteps (i := .gfmul a b) (k := 0) (s := s) (a := a) (b := b) ?_ ?_ n hn
  · rwa [Nat.zero_add] at h
  · exact seqStep_gfmul_first (sequencerSteps_cnt_toNat hs _ (by omega)) a b
  · intro n h1 h7
    have hcnt := sequencerSteps_cnt_toNat hs (.gfmul a b) (n := 0 + n) (by omega)
    exact seqStep_gfmul_later (by omega) (by omega) a b

/-! ### The Itoh-Tsujii inverter (40 R116) -/

theorem seqStep_gfinv_first {s : State} {m : Nat} (hs : s.cnt.toNat = 8 * m) (hm : m < 4) (a : Byte) :
    seqStep (.gfinv a) s =
      (s.mulStart (inverterOperands m a s.gacc).1 (inverterOperands m a s.gacc).2).mulCycle := by
  have hdiv : (s.cnt.toNat + 1 - 1) / 8 = m := by omega
  refine (if_neg (by omega)).trans ((if_pos (by omega)).trans ?_)
  rw [hdiv]

theorem seqStep_gfinv_later {s : State} (hmod : s.cnt.toNat % 8 ≠ 0) (hlt : s.cnt.toNat < 32) (a : Byte) :
    seqStep (.gfinv a) s = s.mulCycle :=
  (if_neg (by omega)).trans (if_neg (by omega))

/-- Product `m` of the inverter, from the product `beta` that it finds in `GACC`. -/
theorem gfinv_product {s : State} (hs : s.cnt = 0) {a beta : Byte} {m : Nat} (hm : m < 4)
    (hbeta : (sequencerSteps (.gfinv a) (8 * m) s).gacc = beta) :
    (sequencerSteps (.gfinv a) (8 * m + 8) s).gacc =
      gmul (inverterOperands m a beta).1 (inverterOperands m a beta).2 := by
  refine (mulAfter_sequencerSteps (k := 8 * m) ?_ ?_ 7 le_rfl).gacc_eq_gmul
  · rw [seqStep_gfinv_first (sequencerSteps_cnt_toNat hs _ (by omega)) hm, hbeta]
  · intro n h1 h7
    have hcnt := sequencerSteps_cnt_toNat hs (.gfinv a) (n := 8 * m + n) (by omega)
    exact seqStep_gfinv_later (by omega) (by omega) a

/-! ### The captured word of a row (30 R85) -/

/-- A word with a command's opcode ends with `ERR_RSVD`, or runs the command with the operands in the word. -/
theorem completeWord_of_row {i : Instr} {s : State} (hop : fieldOp s.cmdr = i.opcode) :
    completeWord s = if reservedSet s.cmdr then .next (s.endWith errRsvd) else exec (i.withFields s.cmdr) s := by
  split
  case isTrue hr =>
    rw [completeWord, decode_of_reserved (hop ▸ i.opcode_toNat_lt) hr]
    rfl
  case isFalse hr => rw [completeWord, decode_of_row hop hr]

/-! ### The obligations of the family -/

/-- Settles O6: the quotient is linear in the product, so its values on the powers of `x` suffice. -/
theorem gmulIsProductModuloPolynomial : Obligations.GmulIsProductModuloPolynomial := by
  unfold Obligations.GmulIsProductModuloPolynomial
  intro a b
  refine ⟨quotient (carrylessProduct a b), fun k hk => ?_⟩
  calc productCoeff a.getLsbD b.getLsbD k = (carrylessProduct a b).getLsbD k := (getLsbD_carrylessProduct a b hk).symm
    _ = (timesPoly (quotient (carrylessProduct a b)) ^^^ (gmul a b).setWidth 16).getLsbD k :=
      congrArg (BitVec.getLsbD · k) (carrylessProduct_eq a b)
    _ = _ := by
      rw [BitVec.getLsbD_xor, getLsbD_timesPoly _ hk, BitVec.getLsbD_setWidth]
      simp [hk]

/-- Settles O7, law by law. -/
theorem fieldLaws : Obligations.FieldLaws := fun a b c =>
  ⟨gmul_comm a b, gmul_assoc a b c, gmul_xor_right a b c, gmul_zero a, gmul_one a, eq_zero_or_eq_zero_of_gmul_eq_zero⟩

/-- Settles O8: the search finds an inverse, and cancellation makes it the only one. -/
theorem ginvIsUniqueInverse : Obligations.GinvIsUniqueInverse := ⟨ginv_zero, fun _ => gmul_eq_one_iff⟩

/-- Settles O9: `a^256 = a` by linearity and for `x`; cancelling `a` gives `a^255 = 1`, so `a^254` is the inverse. -/
theorem ginvIsPower254 : Obligations.GinvIsPower254 := fun a => ⟨ginv_eq_gpow a, gpow_255⟩

/-- Settles O11: each cycle is one step of Horner's rule. -/
theorem bitSerialMultiplierComputesGmul : Obligations.BitSerialMultiplierComputesGmul := by
  unfold Obligations.BitSerialMultiplierComputesGmul
  intro s a b hs
  refine ⟨fun n hn => ?_, (mulAfter_gfmul hs a b 7 le_rfl).gacc_eq_gmul⟩
  obtain ⟨-, -, -, h⟩ := mulAfter_gfmul hs a b n hn
  rwa [Nat.add_sub_add_right 7 1 n] at h

/-- Settles O12: the exponent of each product from that of the one before it. -/
theorem itohTsujiiComputesGinv : Obligations.ItohTsujiiComputesGinv := by
  unfold Obligations.ItohTsujiiComputesGinv
  intro s a hs
  have cube : gmul (gsquare a) a = gpow a 3 := by simpa only [gpow_one] using gmul_gsquare_gpow a 1
  have eightFold : gmul (gsquare (gsquare (gsquare (gpow a 7)))) (gpow a 7) = gpow a 63 := by
    rw [gsquare_gpow, gsquare_gpow, gsquare_gpow, ← gpow_add]
  have h3 := (gfinv_product hs (m := 0) (by omega) rfl).trans cube
  have h7 := (gfinv_product hs (m := 1) (by omega) h3).trans (gmul_gsquare_gpow a 3)
  have h63 := (gfinv_product hs (m := 2) (by omega) h7).trans eightFold
  have h127 := (gfinv_product hs (m := 3) (by omega) h63).trans (gmul_gsquare_gpow a 63)
  refine ⟨h3, h7, h63, h127, ?_⟩
  calc gsquare (sequencerSteps (.gfinv a) 32 s).gacc = gsquare (gpow a 127) := congrArg gsquare h127
    _ = gpow a 254 := gsquare_gpow a 127
    _ = ginv a := (ginv_eq_gpow a).symm

/-- Settles O27: GFMUL cannot fail; its word ends with `ERR_RSVD` or runs it; the corner cases are laws of the product. -/
theorem gfmulWritesProduct : Obligations.GfmulWritesProduct := by
  unfold Obligations.GfmulWritesProduct
  exact ⟨fun s a b => exec_eq (.gfmul a b) s, fun s hop => completeWord_of_row (i := .gfmul 0 0) hop,
    fun a => ⟨zero_gmul a, gmul_zero a, gmul_one a, rfl⟩, by decide, by decide, by decide⟩

/-- Settles O28: as O27; the values of `ginv` are read from its table. -/
theorem gfinvWritesInverse : Obligations.GfinvWritesInverse := by
  unfold Obligations.GfinvWritesInverse
  exact ⟨fun s a => exec_eq (.gfinv a) s, fun s hop => completeWord_of_row (i := .gfinv 0) hop,
    fun a => ⟨gmul_ginv, ginv_ginv a⟩, ginv_zero, ginv_eq_romRead 0x01, ginv_eq_romRead 0x53, ginv_eq_romRead 0x02⟩

/-- Settles O10: a product with `xtime 1`, which is 2, is `xtime` of the product with 1. -/
theorem xtimeIsTimesTwo : Obligations.XtimeIsTimesTwo := fun a => ⟨xtime_eq_gmul a, toNat_xtime a⟩

/-- Settles O13: every nonzero byte's entry is an inverse, and the inverse is unique. -/
theorem ginvTable : Obligations.GinvTable := by
  unfold Obligations.GinvTable
  intro a
  refine ⟨fun h => gmul_ginv ?_, ginv_eq_romRead a⟩
  rintro rfl
  exact h ginv_zero

end Sys2Proof.Machine
end

section
/-! SUPPORT. The family 41_substitution_box: the affine maps, the two ROMs, SBOX and INVSBOX. Each affine map is a linear map
and a constant, so what is said of it need only be seen at 0 and at the eight powers of `x`. Three facts about the ROMs are
checked entry by entry; the others follow from these. -/

namespace Sys2Proof.Machine

/-! ### A byte given by its bits -/

theorem getLsbD_foldl_setBits (f : Nat → Bool) (n : Nat) {i : Nat} (hi : i < 8) :
    ((List.range n).foldl (fun q j => if f j then q ||| 1#8 <<< j else q) 0#8).getLsbD i = (decide (i < n) && f i) := by
  induction n with
  | zero => simp
  | succ n ih =>
    have hpow : (1#8 <<< n).getLsbD i = decide (n = i) := by
      rw [← BitVec.twoPow_eq, BitVec.getLsbD_twoPow]
      by_cases h : n = i <;> simp [h, hi]
    rw [List.range_succ, List.foldl_append, List.foldl_cons, List.foldl_nil]
    by_cases hn : n = i
    · subst hn
      cases f n <;> simp [ih, hpow]
    · have hlt : i < n + 1 ↔ i < n := by omega
      cases f n <;> simp [ih, hpow, hn, hlt]

theorem getLsbD_ofBits (f : Nat → Bool) {i : Nat} (hi : i < 8) : (ofBits f).getLsbD i = f i := by
  refine (getLsbD_foldl_setBits f 8 hi).trans ?_
  rw [decide_eq_true hi, Bool.true_and]

/-! ### Affine maps (41 R132, R133) -/

/-- `f` is a linear map plus the constant `f 0`. -/
def IsAffine (f : Byte → Byte) : Prop := ∀ p q, f (p ^^^ q) = f p ^^^ f q ^^^ f 0

/-- Bits that are sums of input bits and of a constant make an affine map. -/
theorem isAffine_ofBits {g : Byte → Nat → Bool} (hg : ∀ p q i, g (p ^^^ q) i = (g p i ^^ g q i)) (c : Byte) :
    IsAffine fun q => ofBits fun i => g q i ^^ c.getLsbD i := by
  intro p q
  apply BitVec.eq_of_getLsbD_eq
  intro i hi
  have hzero : g 0 i = false := (hg 0 0 i).trans (Bool.xor_self _)
  simp only [BitVec.getLsbD_xor, getLsbD_ofBits _ hi, hg, hzero]
  cases g p i <;> cases g q i <;> cases c.getLsbD i <;> rfl

/-- For `ac_rfl` on sums of bits. -/
theorem commutative_boolXor : Std.Commutative Bool.xor := ⟨Bool.xor_comm⟩

theorem isAffine_affine : IsAffine affine :=
  isAffine_ofBits (c := 0x63) fun p q i => by
    have := commutative_boolXor
    simp only [BitVec.getLsbD_xor]
    ac_rfl

theorem isAffine_invAffine : IsAffine invAffine :=
  isAffine_ofBits (c := 0x05) fun p q i => by
    have := commutative_boolXor
    simp only [BitVec.getLsbD_xor]
    ac_rfl

theorem IsLinear.isAffine_xor {f : Byte → Byte} (hf : IsLinear f) (c : Byte) : IsAffine fun q => f q ^^^ c := by
  intro p q
  have hzero : f 0 = 0#8 := (hf 0 0).trans BitVec.xor_self
  simp only [hf p q, hzero, xor_shared, BitVec.zero_xor]

theorem IsAffine.comp {f g : Byte → Byte} (hg : IsAffine g) (hf : IsAffine f) : IsAffine fun q => g (f q) := by
  intro p q
  calc g (f (p ^^^ q)) = g (f p) ^^^ g (f q) ^^^ g 0 ^^^ g (f 0) ^^^ g 0 := by rw [hf, hg, hg]
    _ = g (f p) ^^^ g (f q) ^^^ g (f 0) ^^^ (g 0 ^^^ g 0) := by ac_rfl
    _ = g (f p) ^^^ g (f q) ^^^ g (f 0) := by rw [BitVec.xor_self]; exact BitVec.xor_zero

/-- Affine maps that agree at 0 and at the powers of `x` are equal. -/
theorem IsAffine.eq_of_pow {f g : Byte → Byte} (hf : IsAffine f) (hg : IsAffine g) (zero : f 0 = g 0)
    (pow : ∀ i, i < 8 → f (1#8 <<< i) = g (1#8 <<< i)) (q : Byte) : f q = g q := by
  induction q using byte_xor_induction with
  | pow i hi => exact pow i hi
  | xor p q hp hq => rw [hf, hg, hp, hq, zero]

theorem isAffine_id : IsAffine fun q => q := fun _ _ => BitVec.xor_zero.symm

theorem invAffine_affine (q : Byte) : invAffine (affine q) = q :=
  (isAffine_invAffine.comp isAffine_affine).eq_of_pow isAffine_id (by decide) (by decide) q

theorem affine_invAffine (s : Byte) : affine (invAffine s) = s :=
  (isAffine_affine.comp isAffine_invAffine).eq_of_pow isAffine_id (by decide) (by decide) s

theorem circulantRow_xor (row0 : List Bool) (i : Nat) (p q : Byte) :
    circulantRow row0 i (p ^^^ q) = (circulantRow row0 i p ^^ circulantRow row0 i q) := by
  simp only [circulantRow, BitVec.getLsbD_xor, Bool.and_xor_distrib_left]
  exact foldl_xor_xor _ _ _ false false

/-- An affine map that is a circulant matrix plus its constant on the powers of `x` is so on every byte. -/
theorem IsAffine.getLsbD_eq_circulantRow {f : Byte → Byte} {row0 : List Bool} {c : Byte} (hf : IsAffine f) (zero : f 0 = c)
    (pow : ∀ i, i < 8 → ∀ j, j < 8 → (f (1#8 <<< j)).getLsbD i = (circulantRow row0 i (1#8 <<< j) ^^ c.getLsbD i))
    (q : Byte) {i : Nat} (hi : i < 8) : (f q).getLsbD i = (circulantRow row0 i q ^^ c.getLsbD i) := by
  induction q using byte_xor_induction with
  | pow j hj => exact pow i hi j hj
  | xor p q hp hq =>
    rw [hf, zero, BitVec.getLsbD_xor, BitVec.getLsbD_xor, hp, hq, circulantRow_xor]
    cases c.getLsbD i <;> simp

/-- Row 0 of the matrix of `affine` (41 R132). -/
def affineRow : List Bool := [true, false, false, false, true, true, true, true]

/-- Row 0 of the matrix of `inv_affine` (41 R133). -/
def invAffineRow : List Bool := [false, false, true, false, false, true, false, true]

theorem getLsbD_affine (q : Byte) {i : Nat} (hi : i < 8) :
    (affine q).getLsbD i = (circulantRow affineRow i q ^^ (0x63#8).getLsbD i) :=
  isAffine_affine.getLsbD_eq_circulantRow (by decide) (by decide) q hi

theorem getLsbD_invAffine (s : Byte) {i : Nat} (hi : i < 8) :
    (invAffine s).getLsbD i = (circulantRow invAffineRow i s ^^ (0x05#8).getLsbD i) :=
  isAffine_invAffine.getLsbD_eq_circulantRow (by decide) (by decide) s hi

theorem circulantRow_invAffineRow_const : ∀ i, i < 8 → circulantRow invAffineRow i 0x63 = (0x05#8).getLsbD i := by decide

/-- The constant of `inv_affine`, removed from its input instead of its output. -/
theorem getLsbD_invAffine_eq_circulantRow_xor (s : Byte) {i : Nat} (hi : i < 8) :
    (invAffine s).getLsbD i = circulantRow invAffineRow i (s ^^^ 0x63) := by
  rw [circulantRow_xor, circulantRow_invAffineRow_const i hi, getLsbD_invAffine s hi]

/-! ### The ROMs (41 R131, R134, R135), checked entry by entry, each as one natural number, on which a large check is light -/

/-- The rows of a table one after the other, as one natural number. -/
def tableNat (rows : List Block) : Nat := rows.foldl (fun t row => t <<< 128 ^^^ row.toNat) 0

/-- Entry `n` of a table of sixteen rows. -/
def tableEntry (rows : List Block) (n : Nat) : Nat := tableNat rows >>> (2040 - 8 * n) % 2 ^ 8

/-- A table whose rows can be read from its number gives the same entries by either way. -/
theorem toNat_romRead {rows : List Block}
    (hrows : ∀ i, i < 16 → (rows.getD i 0).toNat = tableNat rows >>> (1920 - 128 * i) % 2 ^ 128) (a : Byte) :
    (romRead rows a).toNat = tableEntry rows a.toNat := by
  have hlt := a.isLt
  have hbyte : (romRead rows a).toNat = (rows.getD (a.toNat / 16) 0).toNat >>> (120 - 8 * (a.toNat % 16)) % 2 ^ 8 :=
    BitVec.extractLsb'_toNat ..
  rw [hbyte, hrows _ (by omega), tableEntry]
  apply Nat.eq_of_testBit_eq
  intro k
  simp only [Nat.testBit_mod_two_pow, Nat.testBit_shiftRight]
  by_cases hk : k < 8
  · have hin : 120 - 8 * (a.toNat % 16) + k < 128 := by omega
    have hbit : 1920 - 128 * (a.toNat / 16) + (120 - 8 * (a.toNat % 16) + k) = 2040 - 8 * a.toNat + k := by omega
    rw [decide_eq_true hin, Bool.true_and, hbit]
  · simp only [hk, decide_false, Bool.false_and]

theorem toNat_sboxRom (a : Byte) : (sboxRom a).toNat = tableEntry sboxRows a.toNat := toNat_romRead (by decide) a

theorem toNat_invSboxRom (a : Byte) : (invSboxRom a).toNat = tableEntry invSboxRows a.toNat := toNat_romRead (by decide) a

theorem toNat_ginv (a : Byte) : (ginv a).toNat = tableEntry inverseRows a.toNat := by
  rw [ginv_eq_romRead]
  exact toNat_romRead (by decide) a

/-- A check of every byte, nibble by nibble. -/
theorem forall_byte_of_nibbles {p : Nat → Prop} (h : ∀ i, i < 16 → ∀ j, j < 16 → p (16 * i + j)) (a : Byte) :
    p a.toNat := by
  have hlt := a.isLt
  have hentry := h (a.toNat / 16) (by omega) (a.toNat % 16) (by omega)
  rwa [Nat.div_add_mod] at hentry

/-- The matrix of `inv_affine` as a sum of rotations, with the bits from 8 on still to be dropped. -/
def rotationSum (n : Nat) : Nat :=
  n <<< 1 ^^^ n <<< 3 ^^^ n <<< 6 ^^^ n <<< 1 >>> 8 ^^^ n <<< 3 >>> 8 ^^^ n <<< 6 >>> 8

theorem rotationSum_xor (m n : Nat) : rotationSum (m ^^^ n) = rotationSum m ^^^ rotationSum n := by
  simp only [rotationSum, Nat.shiftLeft_xor_distrib, Nat.shiftRight_xor_distrib]
  ac_rfl

theorem rotationSum_linear : IsLinear fun s : Byte => BitVec.ofNat 8 (rotationSum s.toNat) := fun p q => by
  simp only [BitVec.toNat_xor, rotationSum_xor, BitVec.ofNat_xor]

theorem invAffine_eq_rotationSum : ∀ s, invAffine s = BitVec.ofNat 8 (rotationSum s.toNat) ^^^ 0x05 :=
  isAffine_invAffine.eq_of_pow (rotationSum_linear.isAffine_xor 0x05) (by decide) (by decide)

/-- `inv_affine` of each entry of `SBOX_ROM` is the entry of the table of inverses. -/
theorem invAffine_sboxRom (a : Byte) : invAffine (sboxRom a) = ginv a := by
  apply BitVec.eq_of_toNat_eq
  rw [invAffine_eq_rotationSum, BitVec.toNat_xor, BitVec.toNat_ofNat, toNat_sboxRom, toNat_ginv]
  exact forall_byte_of_nibbles
    (p := fun n => rotationSum (tableEntry sboxRows n) % 2 ^ 8 ^^^ 0x05 = tableEntry inverseRows n) (by decide) a

theorem sboxRom_invSboxRom (s : Byte) : sboxRom (invSboxRom s) = s := by
  apply BitVec.eq_of_toNat_eq
  rw [toNat_sboxRom, toNat_invSboxRom]
  exact forall_byte_of_nibbles (p := fun n => tableEntry sboxRows (tableEntry invSboxRows n) = n) (by decide) s

theorem sboxRom_no_fixed_points (a : Byte) : sboxRom a ≠ a ∧ sboxRom a ≠ a ^^^ 0xFF := by
  rw [Ne, Ne, ← BitVec.toNat_inj, ← BitVec.toNat_inj, BitVec.toNat_xor, toNat_sboxRom]
  exact forall_byte_of_nibbles (p := fun n => tableEntry sboxRows n ≠ n ∧ tableEntry sboxRows n ≠ n ^^^ 0xFF) (by decide) a

theorem sboxRom_eq_affine_ginv (a : Byte) : sboxRom a = affine (ginv a) := by
  rw [← invAffine_sboxRom, affine_invAffine]

theorem ginv_invAffine_sboxRom (a : Byte) : ginv (invAffine (sboxRom a)) = a := by
  rw [invAffine_sboxRom, ginv_ginv]

/-- The entries of `INV_SBOX_ROM` are preimages under `sbox`, of which there is one. -/
theorem invSboxRom_eq_ginv_invAffine (s : Byte) : invSboxRom s = ginv (invAffine s) := by
  rw [← ginv_invAffine_sboxRom (invSboxRom s), sboxRom_invSboxRom]

theorem invSboxRom_sboxRom (a : Byte) : invSboxRom (sboxRom a) = a := by
  rw [invSboxRom_eq_ginv_invAffine, ginv_invAffine_sboxRom]

/-! ### The obligations of the family -/

/-- Settles O29: SBOX cannot fail; its word ends with `ERR_RSVD` or runs it; the ROM holds `sbox`, with no fixed point. -/
theorem sboxWritesForwardMap : Obligations.SboxWritesForwardMap :=
  ⟨fun s a => exec_eq (.sbox a) s, fun _ hop => completeWord_of_row (i := .sbox 0) hop,
    fun a => ⟨sboxRom_eq_affine_ginv a, (sboxRom_no_fixed_points a).1⟩, rfl, rfl, rfl⟩

/-- Settles O30: as O29; `INV_SBOX_ROM` undoes `SBOX_ROM`. -/
theorem invsboxWritesInverseMap : Obligations.InvsboxWritesInverseMap :=
  ⟨fun s a => exec_eq (.invsbox a) s, fun _ hop => completeWord_of_row (i := .invsbox 0) hop,
    fun a => ⟨invSboxRom_eq_ginv_invAffine a, invSboxRom_sboxRom a⟩, rfl, rfl, rfl⟩

/-- Settles O14: `SBOX_ROM` is compared with the table of inverses, and `INV_SBOX_ROM` is its inverse. -/
theorem romsHoldTheSubstitutionMaps : Obligations.RomsHoldTheSubstitutionMaps :=
  ⟨fun a => ⟨sboxRom_eq_affine_ginv a, invSboxRom_eq_ginv_invAffine a⟩, ginv_zero, rfl, rfl, rfl, rfl,
    fun x => ⟨invSboxRom_sboxRom x, sboxRom_invSboxRom x, sboxRom_no_fixed_points x⟩⟩

/-- Settles O15: both sides of each equation are affine, so they are compared on the powers of `x`. -/
theorem affineMapsAreCirculant : Obligations.AffineMapsAreCirculant :=
  ⟨fun q _ hi => ⟨getLsbD_affine q hi, getLsbD_invAffine q hi, getLsbD_invAffine_eq_circulantRow_xor q hi⟩,
    circulantRow_invAffineRow_const, fun q => ⟨invAffine_affine q, affine_invAffine q⟩⟩

end Sys2Proof.Machine
end

section
/-! SUPPORT. The family 42_key_schedule: the expanded key column by column, the sequencers of KEYEXP, ENC and DEC, KEYEXP and
RKRD. Each sequencer is followed by what its registers hold after `n` steps. -/

namespace Sys2Proof.Machine

/-! ### The columns of the expanded key (42 R150, R153) -/

/-- A value built from columns gives them back. -/
theorem column_ofColumns (c0 c1 c2 c3 : Column) :
    column (ofColumns c0 c1 c2 c3) 0 = c0 ∧ column (ofColumns c0 c1 c2 c3) 1 = c1 ∧
    column (ofColumns c0 c1 c2 c3) 2 = c2 ∧ column (ofColumns c0 c1 c2 c3) 3 = c3 := by
  simp [column, ofColumns, BitVec.extractLsb'_append_eq_of_le (w := 32), BitVec.extractLsb'_append_eq_of_add_le (w := 32)]

/-- The first column of the next round key takes the last one of the round key before it, rotated and substituted. -/
theorem column_zero_nextRoundKey (prev : Block) (r : Nat) :
    column (nextRoundKey prev r) 0 =
      column prev 0 ^^^ (subColumn (rotColumn (column prev 3)) ^^^ roundConstColumn r) := by
  simp [nextRoundKey, column_ofColumns]

/-- Each later column of the next round key takes the column before it. -/
theorem column_succ_nextRoundKey (prev : Block) (r : Nat) {c : Nat} (hc : c < 3) :
    column (nextRoundKey prev r) (c + 1) = column prev (c + 1) ^^^ column (nextRoundKey prev r) c := by
  interval_cases c <;> simp [nextRoundKey, column_ofColumns, BitVec.xor_comm]

theorem roundKeyOf_succ (key : Block) (r : Nat) : roundKeyOf key (r + 1) = nextRoundKey (roundKeyOf key r) (r + 1) := rfl

/-- Word `4r + c` is column `c` of round key `r`. -/
theorem scheduleWord_eq (key : Block) {r c : Nat} (hr : r < 11) (hc : c < 4) :
    scheduleWord key (4 * r + c) = column (roundKeyOf key r) c := by
  have hdiv : (4 * r + c) / 4 = r := by omega
  have hmod : (4 * r + c) % 4 = c := by omega
  simp [scheduleWord, hdiv, hmod, hr, expand_getElem]

/-- The word that starts round key `r + 1` (42 R153, `i mod 4 = 0`). -/
theorem scheduleWord_first (key : Block) {r : Nat} (hr : r < 10) :
    scheduleWord key (4 * (r + 1)) = scheduleWord key (4 * r) ^^^
      (subColumn (rotColumn (scheduleWord key (4 * r + 3))) ^^^ roundConstColumn (r + 1)) := by
  have hnew := scheduleWord_eq key (r := r + 1) (c := 0) (by omega) (by omega)
  have hold := scheduleWord_eq key (r := r) (c := 0) (by omega) (by omega)
  have hlast := scheduleWord_eq key (r := r) (c := 3) (by omega) (by omega)
  rw [Nat.add_zero] at hnew hold
  rw [hnew, hold, hlast, roundKeyOf_succ, column_zero_nextRoundKey]

/-- Every other word of round key `r + 1` (42 R153, `i mod 4 ≠ 0`). -/
theorem scheduleWord_later (key : Block) {r c : Nat} (hr : r < 10) (hc : c < 3) :
    scheduleWord key (4 * (r + 1) + (c + 1)) =
      scheduleWord key (4 * r + (c + 1)) ^^^ scheduleWord key (4 * (r + 1) + c) := by
  rw [scheduleWord_eq key (by omega) (by omega), scheduleWord_eq key (by omega) (by omega),
    scheduleWord_eq key (by omega) (by omega), roundKeyOf_succ, column_succ_nextRoundKey _ _ hc]

/-! ### What a command's sequencer leaves as it was captured (44 R213) -/

@[simp] theorem seqStep_keyr (i : Instr) (s : State) : (seqStep i s).keyr = s.keyr := by
  rw [seqStep_frame]
  rfl

@[simp] theorem seqStep_dinr (i : Instr) (s : State) : (seqStep i s).dinr = s.dinr := by
  rw [seqStep_frame]
  rfl

@[simp] theorem seqStep_rkt (i : Instr) (s : State) : (seqStep i s).rkt = s.rkt := by
  rw [seqStep_frame]
  rfl

@[simp] theorem sequencerSteps_keyr (i : Instr) (n : Nat) (s : State) : (sequencerSteps i n s).keyr = s.keyr := by
  induction n with
  | zero => rfl
  | succ n ih => simp [sequencerSteps_succ, ih]

@[simp] theorem sequencerSteps_dinr (i : Instr) (n : Nat) (s : State) : (sequencerSteps i n s).dinr = s.dinr := by
  induction n with
  | zero => rfl
  | succ n ih => simp [sequencerSteps_succ, ih]

@[simp] theorem sequencerSteps_rkt (i : Instr) (n : Nat) (s : State) : (sequencerSteps i n s).rkt = s.rkt := by
  induction n with
  | zero => rfl
  | succ n ih => simp [sequencerSteps_succ, ih]

/-! ### The key-expansion sequencer (42 R157) -/

/-- The registers after cycle `n` of the expansion of `key`: `WKEY` holds round key `n`, `RCNT` names the next cycle, and
`SHADOW` holds the round keys up to `n`, round key `r + 1` at index `r`. -/
def KeyAfter (key : Block) (n : Nat) (s : State) : Prop :=
  s.wkey = roundKeyOf key n ∧ s.rcnt = BitVec.ofNat 4 (n + 1) ∧
  ∀ r : Fin 10, r < n → s.shadow.get r = roundKeyOf key (r + 1)

theorem KeyAfter.waitEdge {key : Block} {n : Nat} {s : State} (h : KeyAfter key n s) : KeyAfter key n s.waitEdge := h

/-- A cycle from round key `n`, with the round keys up to it in `SHADOW`. -/
theorem KeyAfter.keyCycle {key : Block} {n : Nat} {s : State}
    (hshadow : ∀ r : Fin 10, r < n → s.shadow.get r = roundKeyOf key (r + 1)) :
    KeyAfter key (n + 1) (s.keyCycle (roundKeyOf key n) (n + 1)) := by
  refine ⟨rfl, rfl, fun r hr => ?_⟩
  rw [State.keyCycle_shadow, Nat.add_sub_cancel, Vector.get_eq_getElem, Vector.getElem_setIfInBounds]
  split
  case isTrue heq => rw [heq, roundKeyOf_succ]
  case isFalse hne => exact hshadow r (by omega)

theorem seqStep_keyexp_first {s : State} (hs : s.cnt.toNat = 0) : seqStep .keyexp s = s.keyCycle s.keyr 1 :=
  if_pos (congrArg (· + 1) hs)

theorem seqStep_keyexp_later {s : State} {k : Nat} (hpos : 1 ≤ s.cnt.toNat) (hk : s.rcnt.toNat = k) (h1 : 1 ≤ k)
    (h10 : k ≤ 10) : seqStep .keyexp s = s.keyCycle s.wkey k := by
  subst hk
  exact (if_neg (by omega)).trans (if_pos ⟨h1, h10⟩)

theorem keyAfter_sequencerSteps {s : State} (hs : s.cnt = 0) (n : Nat) (hn : n ≤ 9) :
    KeyAfter s.keyr (n + 1) (sequencerSteps .keyexp (n + 1) s) := by
  induction n with
  | zero =>
    rw [sequencerSteps_succ, seqStep_keyexp_first (sequencerSteps_cnt_toNat hs .keyexp (by omega))]
    exact (KeyAfter.keyCycle (n := 0) fun r hr => absurd hr (by omega)).waitEdge
  | succ n ih =>
    obtain ⟨hwkey, hrcnt, hshadow⟩ := ih (by omega)
    have hcnt := sequencerSteps_cnt_toNat hs .keyexp (n := n + 1) (by omega)
    have hk : (sequencerSteps .keyexp (n + 1) s).rcnt.toNat = n + 2 := by
      rw [hrcnt, BitVec.toNat_ofNat, Nat.mod_eq_of_lt (by omega)]
    rw [sequencerSteps_succ, seqStep_keyexp_later (by omega) hk (by omega) (by omega), hwkey]
    exact (KeyAfter.keyCycle hshadow).waitEdge

/-- Ten cycles fill `SHADOW` with round keys 1 to 10. -/
theorem shadowTable_of_keyAfter {s : State} (h : KeyAfter s.keyr 10 s) : shadowTable s = expand s.keyr := by
  obtain ⟨-, -, hshadow⟩ := h
  have hget (r : Fin 10) : s.shadow.get r = roundKeyOf s.keyr (r + 1) := hshadow r r.isLt
  simp [shadowTable, expand, hget, roundKeyOf]

/-! ### The ENC and DEC sequencers (44 R210, R211) -/

/-- The value that `encryptBlock` carries through its loop, before round `n + 1` (44 R200). -/
def encryptRounds (b : Block) (rk : Vector Block 11) (n : Nat) : Block :=
  (middleRounds.take n).foldl (fun s r => encryptRound s (rk.get r)) (addRoundKey b (rk.get 0))

/-- The value that `decryptBlock` carries through its loop, before round `9 - n` (44 R201). -/
def decryptRounds (b : Block) (rk : Vector Block 11) (n : Nat) : Block :=
  (middleRounds.reverse.take n).foldl (fun s r => decryptRound s (rk.get r)) (addRoundKey b (rk.get 10))

theorem encryptRounds_succ (b : Block) (rk : Vector Block 11) {n : Nat} (hn : n < 9) :
    encryptRounds b rk (n + 1) = encryptRound (encryptRounds b rk n) rk[n + 1] := by
  interval_cases n <;> rfl

theorem decryptRounds_succ (b : Block) (rk : Vector Block 11) {n : Nat} (hn : n < 9) :
    decryptRounds b rk (n + 1) = decryptRound (decryptRounds b rk n) rk[9 - n] := by
  interval_cases n <;> rfl

theorem encryptBlock_eq (b : Block) (rk : Vector Block 11) :
    encryptBlock b rk = encryptLast (encryptRounds b rk 9) (rk.get 10) := rfl

theorem decryptBlock_eq (b : Block) (rk : Vector Block 11) :
    decryptBlock b rk = decryptLast (decryptRounds b rk 9) (rk.get 0) := rfl

theorem seqStep_enc_first {s : State} (hs : s.cnt.toNat = 0) :
    seqStep .enc s = { s with work := encryptRounds s.dinr s.rkt 0, rcnt := 1 } :=
  if_pos (congrArg (· + 1) hs)

theorem seqStep_dec_first {s : State} (hs : s.cnt.toNat = 0) :
    seqStep .dec s = { s with work := decryptRounds s.dinr s.rkt 0, rcnt := 9 } :=
  if_pos (congrArg (· + 1) hs)

theorem seqStep_enc_later {s : State} {r : Nat} (hpos : 1 ≤ s.cnt.toNat) (hr : s.rcnt.toNat = r) (h1 : 1 ≤ r) (h9 : r ≤ 9) :
    seqStep .enc s = { s with work := encryptRound s.work s.rkt[r], rcnt := s.rcnt + 1 } := by
  subst hr
  exact (if_neg (by omega)).trans (dif_pos ⟨h1, h9⟩)

theorem seqStep_dec_later {s : State} {r : Nat} (hpos : 1 ≤ s.cnt.toNat) (hr : s.rcnt.toNat = r) (h1 : 1 ≤ r) (h9 : r ≤ 9) :
    seqStep .dec s = { s with work := decryptRound s.work s.rkt[r], rcnt := s.rcnt - 1 } := by
  subst hr
  exact (if_neg (by omega)).trans (dif_pos ⟨h1, h9⟩)

/-- Step `n + 1` of ENC has made `n` rounds, and `RCNT` names the next. -/
theorem sequencerSteps_enc {s : State} (hs : s.cnt = 0) (n : Nat) (hn : n ≤ 9) :
    (sequencerSteps .enc (n + 1) s).work = encryptRounds s.dinr s.rkt n ∧
    (sequencerSteps .enc (n + 1) s).rcnt.toNat = n + 1 := by
  induction n with
  | zero =>
    rw [sequencerSteps_succ, seqStep_enc_first (sequencerSteps_cnt_toNat hs .enc (by omega))]
    exact ⟨rfl, rfl⟩
  | succ n ih =>
    obtain ⟨hwork, hrcnt⟩ := ih (by omega)
    have hcnt := sequencerSteps_cnt_toNat hs .enc (n := n + 1) (by omega)
    rw [sequencerSteps_succ, seqStep_enc_later (by omega) hrcnt (by omega) (by omega), encryptRounds_succ _ _ (by omega)]
    exact ⟨by simp [hwork], show (_ + 1 : BitVec 4).toNat = _ by bv_omega⟩

/-- Step `n + 1` of DEC has made `n` rounds, and `RCNT` names the next, counting down. -/
theorem sequencerSteps_dec {s : State} (hs : s.cnt = 0) (n : Nat) (hn : n ≤ 9) :
    (sequencerSteps .dec (n + 1) s).work = decryptRounds s.dinr s.rkt n ∧
    (sequencerSteps .dec (n + 1) s).rcnt.toNat = 9 - n := by
  induction n with
  | zero =>
    rw [sequencerSteps_succ, seqStep_dec_first (sequencerSteps_cnt_toNat hs .dec (by omega))]
    exact ⟨rfl, rfl⟩
  | succ n ih =>
    obtain ⟨hwork, hrcnt⟩ := ih (by omega)
    have hcnt := sequencerSteps_cnt_toNat hs .dec (n := n + 1) (by omega)
    rw [sequencerSteps_succ, seqStep_dec_later (by omega) hrcnt (by omega) (by omega), decryptRounds_succ _ _ (by omega)]
    exact ⟨by simp [hwork], show (_ - 1 : BitVec 4).toNat = _ by bv_omega⟩

/-! ### The round-key operand (30 R85) -/

theorem roundKeyOperand_of_loaded {s : State} {rnd : BitVec 4} (h : rnd.toNat < 11) (hk : s.keyValid = true) :
    roundKeyOperand s rnd = .ok s.rkt[rnd.toNat] := by
  have hr : rnd.toNat ≤ 10 := by omega
  simp [roundKeyOperand, hr, hk]

theorem roundKeyOperand_of_gt {s : State} {rnd : BitVec 4} (h : 10 < rnd.toNat) :
    roundKeyOperand s rnd = .error errRnd := by
  have hr : ¬ rnd.toNat ≤ 10 := by omega
  simp [roundKeyOperand, hr]

theorem roundKeyOperand_of_noKey {s : State} {rnd : BitVec 4} (h : rnd.toNat ≤ 10) (hk : s.keyValid = false) :
    roundKeyOperand s rnd = .error errNokey := by
  simp [roundKeyOperand, h, hk]

/-! ### RKRD (42 R156) -/

theorem exec_rkrd (rnd : BitVec 4) (s : State) :
    exec (.rkrd rnd) s = finish s (roundKeyOperand s rnd) fun key s => s.writeDout key := rfl

theorem exec_rkrd_of_loaded {s : State} {rnd : BitVec 4} (h : rnd.toNat < 11) (hk : s.keyValid = true) :
    exec (.rkrd rnd) s = .next ((s.writeDout s.rkt[rnd.toNat]).endWith errNone) := by
  rw [exec_rkrd, roundKeyOperand_of_loaded h hk]
  rfl

theorem exec_rkrd_of_error {s : State} {rnd : BitVec 4} {e : BitVec 3} (h : roundKeyOperand s rnd = .error e) :
    exec (.rkrd rnd) s = .next (s.endWith e) := by
  rw [exec_rkrd, h]
  rfl

/-! ### The example of 42 R155 and R156

Round key 10 is evaluated through ten nested rounds, deeper than the default recursion limit lets `rfl` go. -/

theorem expand_example_one : (expand 0x2b7e151628aed2a6abf7158809cf4f3c).get 1 = 0xa0fafe1788542cb123a339392a6c7605 :=
  rfl

set_option maxRecDepth 1000 in
theorem expand_example_ten : (expand 0x2b7e151628aed2a6abf7158809cf4f3c).get 10 = 0xd014f9a8c9ee2589e13f0cc8b6630ca6 :=
  rfl

/-! ### The obligations of the family -/

/-- Settles O17: round by round, the first word by `scheduleWord_first` and the three after it by `scheduleWord_later`. -/
theorem keyScheduleRecurrence : Obligations.KeyScheduleRecurrence := by
  unfold Obligations.KeyScheduleRecurrence
  refine fun key => ⟨rfl, fun i h4 h43 => ?_⟩
  obtain ⟨r, hr⟩ : ∃ r, i / 4 = r + 1 := ⟨i / 4 - 1, by omega⟩
  split
  case isTrue h0 =>
    have hi : i = 4 * (r + 1) := by omega
    have hprev : i - 4 = 4 * r := by omega
    have hlast : i - 1 = 4 * r + 3 := by omega
    rw [hr, hprev, hlast, hi]
    exact scheduleWord_first key (by omega)
  case isFalse h0 =>
    obtain ⟨c, hc⟩ : ∃ c, i % 4 = c + 1 := ⟨i % 4 - 1, by omega⟩
    have hi : i = 4 * (r + 1) + (c + 1) := by omega
    have hprev : i - 4 = 4 * r + (c + 1) := by omega
    have hlast : i - 1 = 4 * (r + 1) + c := by omega
    rw [hprev, hlast, hi]
    exact scheduleWord_later key (by omega) (by omega)

/-- Settles O25: by what the registers hold after each step; `RCNT` names the round to come. -/
theorem sequencersComputeResults : Obligations.SequencersComputeResults := by
  unfold Obligations.SequencersComputeResults
  refine fun s hs => ⟨?_, ?_, ?_⟩
  · have h := keyAfter_sequencerSteps hs 9 le_rfl
    rw [← sequencerSteps_keyr .keyexp 10 s] at h ⊢
    exact shadowTable_of_keyAfter h
  · obtain ⟨hwork, -⟩ := sequencerSteps_enc hs 9 le_rfl
    rw [hwork, encryptBlock_eq]
  · obtain ⟨hwork, -⟩ := sequencerSteps_dec hs 9 le_rfl
    rw [hwork, decryptBlock_eq]

/-- Settles O31: KEYEXP cannot fail; its word ends with `ERR_RSVD` or runs it; the example is computed. -/
theorem keyexpLoadsExpandedKey : Obligations.KeyexpLoadsExpandedKey :=
  ⟨fun s => exec_eq .keyexp s, fun _ hop => completeWord_of_row (i := .keyexp) hop, expand_example_one, expand_example_ten⟩

/-- Settles O32: RKRD is decided by its operand; entry 0 of an expanded key is the key. -/
theorem rkrdReadsRoundKey : Obligations.RkrdReadsRoundKey := by
  unfold Obligations.RkrdReadsRoundKey
  refine ⟨fun s rnd h hk => exec_rkrd_of_loaded h hk, fun s rnd h => exec_rkrd_of_error (roundKeyOperand_of_gt h),
    fun s rnd h hk => exec_rkrd_of_error (roundKeyOperand_of_noKey h hk),
    fun s hop => completeWord_of_row (i := .rkrd 0) hop, fun s key hk hrkt => ?_, fun s hk hrkt => ?_⟩
  · have hkey : s.rkt[(0 : BitVec 4).toNat] = key := by
      rw [hrkt]
      rfl
    rw [exec_rkrd_of_loaded (by decide) hk, hkey]
    rfl
  · refine ⟨_, exec_rkrd_of_loaded (by decide) hk, ?_⟩
    rw [hrkt]
    exact expand_example_ten

/-- Settles O16: the list is the definition's; each step of it is one doubling. -/
theorem roundConstantsArePowers : Obligations.RoundConstantsArePowers := by
  unfold Obligations.RoundConstantsArePowers
  refine ⟨rfl, rfl, fun i h1 h9 => ?_⟩
  interval_cases i <;> rfl

end Sys2Proof.Machine
end
